-- ==== Sys2Proof/Word.lean ====
section
/-! DEFINITION. The word types of BBTX-PT (rules R8 and R12 of spec/00_scope.md): every value is an unsigned
number of a fixed width, bit 0 the least significant. -/

namespace Sys2Proof

/-- A data byte, 8 bits (rule R8). -/
abbrev Byte := BitVec 8

/-- A command word or a STATUS word, 16 bits (rules R8 and R47). -/
abbrev Word := BitVec 16

/-- A duration or a budget, 32 bits unsigned (rule R8). -/
abbrev Wide := BitVec 32

end Sys2Proof
end

