-- ==== Sys2Proof/Config.lean ====
section
/-! DEFINITION. What is fixed when the block is built (the parameters of rule R7, spec/00_scope.md), and what the
outside world drives into it: the input ports of rule R22 and their free draws (rule R116). -/

namespace Sys2Proof.Config

/-- The eight implementation parameters of rule R7, as plain numbers. -/
structure Parameters where
  /-- CLK_HZ: the frequency of `clk`. It enters no rule; it only converts cycles to seconds (R10). -/
  clkHz : Nat
  /-- BIT_CYCLES (B): clock cycles per serial bit. -/
  bitCycles : Nat
  /-- TRIG_CYCLES (T): clock cycles the trigger is held high. -/
  trigCycles : Nat
  /-- PRESCALE (P): clock cycles per counter tick. -/
  prescale : Nat
  /-- CW: the width of the free-running counter; MOD = 2^CW. -/
  counterWidth : Nat
  /-- RISE_BUDGET (M): samples the wait for the rising edge may use. -/
  riseBudget : Nat
  /-- FALL_BUDGET (N): samples the wait for the falling edge may use. -/
  fallBudget : Nat
  /-- SYNC_STAGES (S): synchroniser flip-flops on `echo_pin`. -/
  syncStages : Nat
  deriving DecidableEq, Repr

/-- The names of the parameters of rule R7, for a refusal that says which one is out of range. -/
inductive Parameter where
  | clkHz | bitCycles | trigCycles | prescale | counterWidth | riseBudget | fallBudget | syncStages
  deriving DecidableEq, Repr

/-- The ranges of rule R7. A configuration is legal only when every parameter is inside its range (R9). -/
abbrev Parameters.Legal (p : Parameters) : Prop :=
  0 < p.clkHz
  ∧ (1 ≤ p.bitCycles ∧ p.bitCycles ≤ 65536)
  ∧ (1 ≤ p.trigCycles ∧ p.trigCycles ≤ 65536)
  ∧ (1 ≤ p.prescale ∧ p.prescale ≤ 65536)
  ∧ (1 ≤ p.counterWidth ∧ p.counterWidth ≤ 16)
  ∧ (1 ≤ p.riseBudget ∧ p.riseBudget ≤ 2 ^ 32 - 1)
  ∧ (1 ≤ p.fallBudget ∧ p.fallBudget ≤ 2 ^ 32 - 1)
  ∧ p.syncStages ≤ 3

/-- Every parameter that is outside its range of rule R7, by name (DESIGN CHOICE, log entry 16). -/
def Parameters.outOfRange (p : Parameters) : List Parameter :=
  (if 0 < p.clkHz then [] else [.clkHz])
  ++ (if 1 ≤ p.bitCycles ∧ p.bitCycles ≤ 65536 then [] else [.bitCycles])
  ++ (if 1 ≤ p.trigCycles ∧ p.trigCycles ≤ 65536 then [] else [.trigCycles])
  ++ (if 1 ≤ p.prescale ∧ p.prescale ≤ 65536 then [] else [.prescale])
  ++ (if 1 ≤ p.counterWidth ∧ p.counterWidth ≤ 16 then [] else [.counterWidth])
  ++ (if 1 ≤ p.riseBudget ∧ p.riseBudget ≤ 2 ^ 32 - 1 then [] else [.riseBudget])
  ++ (if 1 ≤ p.fallBudget ∧ p.fallBudget ≤ 2 ^ 32 - 1 then [] else [.fallBudget])
  ++ (if p.syncStages ≤ 3 then [] else [.syncStages])

/-- CW of this hardware (rule R7, "value for this hardware"): MOD = 256. -/
abbrev counterWidth : Nat := 8

/-- S of this hardware (rule R7, "value for this hardware"). -/
abbrev syncStages : Nat := 2

/-- The illustrative configuration RC1 (decision D31, 95_test_vectors.md). It is not normative: it only shows
that a legal build exists. -/
def rc1 : Parameters :=
  { clkHz := 1000000, bitCycles := 104, trigCycles := 10, prescale := 1, counterWidth := 8,
    riseBudget := 30000, fallBudget := 30000, syncStages := 2 }

/-- A build of this hardware: legal parameters (R9), with the CW and S that R7 gives this hardware. An illegal
configuration cannot be written as a `Build`. -/
structure Build where
  params : Parameters := rc1
  legal : params.Legal := by decide
  width : params.counterWidth = counterWidth := by decide
  stages : params.syncStages = syncStages := by decide
  deriving Inhabited

/-- Why a configuration is no build of this hardware. -/
inductive BuildRefusal where
  /-- Raised for parameters outside their range (rule R9, items X13 and X14). Safe: no block exists for them. -/
  | illegal (which : List Parameter)
  /-- Raised for legal parameters whose CW or S is not the one R7 gives this hardware. Safe: it is another build,
  which the generic `Block` of Machine/State.lean still describes (log entry 9). -/
  | otherHardware
  deriving DecidableEq, Repr

/-- Building a block refuses an illegal configuration by name (rule R9). -/
def buildFrom (p : Parameters) : Except BuildRefusal Build :=
  if legal : p.Legal then
    if here : p.counterWidth = counterWidth ∧ p.syncStages = syncStages then
      .ok { params := p, legal := legal, width := here.1, stages := here.2 }
    else .error .otherHardware
  else .error (.illegal p.outOfRange)

/-- DESIGN CHOICE (log entry 1): the open parameters of rule R7 (B, T, P, M, N, CLK_HZ) as one opaque legal
build. Nothing can be proved of their values beyond their ranges. -/
opaque build : Build

/-- The parameters of this hardware's build (rule R7). -/
def params : Parameters := build.params

/-- The input ports of one cycle (rule R22; `clk` is the step itself). -/
structure Pins where
  /-- `rst`: synchronous reset, active high (R134). -/
  rst : Bool
  /-- `cmd_valid`: the host offers the word on `cmd` in this cycle. -/
  cmdValid : Bool
  /-- `cmd`: the command word. -/
  cmd : Word
  /-- `echo_pin`: the sensor's echo line, 1 = asserted (R16). -/
  echoPin : Bool
  deriving DecidableEq, Repr, Inhabited

/-- DESIGN CHOICE (log entry 2): the free inputs of rule R116, one draw per cycle. Opaque, so a claim that holds
holds for every host and every echo source. -/
opaque drawPins : Nat → Pins

/-! ### Quantities that follow from the parameters (rules R10, R7 and R153). No rule of the block reads them. -/

/-- One frame lasts 10 × B cycles (R10). -/
def Parameters.frameCycles (p : Parameters) : Nat := 10 * p.bitCycles

/-- n cycles in seconds (R10, R153). -/
def Parameters.seconds (p : Parameters) (cycles : Nat) : ℚ := (cycles : ℚ) / (p.clkHz : ℚ)

/-- The baud rate CLK_HZ / B (R10). -/
def Parameters.baud (p : Parameters) : ℚ := (p.clkHz : ℚ) / (p.bitCycles : ℚ)

/-- The time of a duration of `ticks`: ticks × P / CLK_HZ seconds (R108, R10, conflict C9). -/
def Parameters.tickSeconds (p : Parameters) (ticks : Nat) : ℚ :=
  (ticks : ℚ) * (p.prescale : ℚ) / (p.clkHz : ℚ)

/-- Rounding to the nearest integer, halves upward (DESIGN CHOICE, log entry 8: the spec writes only "round"). -/
def roundDiv (a b : Nat) : Nat := (2 * a + b) / (2 * b)

/-- The reference value of B, round(104 × CLK_HZ / 10^6) (R7). Not normative. -/
def referenceBitCycles (clkHz : Nat) : Nat := roundDiv (104 * clkHz) 1000000

/-- The reference value of T, round(10 × CLK_HZ / 10^6) (R7). Not normative. -/
def referenceTrigCycles (clkHz : Nat) : Nat := roundDiv (10 * clkHz) 1000000

/-- The reference value of P, CLK_HZ / 10^6 when that is an integer (R7). Not normative. -/
def referencePrescale (clkHz : Nat) : Option Nat :=
  if clkHz % 1000000 = 0 then some (clkHz / 1000000) else none

end Sys2Proof.Config
end

