-- ==== Sys2Proof/Syntax.lean ====
section
/-! DEFINITION. The command set BBTX-PT CMD16, version 1: one constructor per row of spec/opcode_table.json
(rule R75, spec/30_encoding.md), and the statements of its assembler (rules R77 and R78). -/

namespace Sys2Proof

/-- The commands of rule R75. TXB's operand is the unsigned byte IMM8; no other command has one (R73). -/
inductive Instr where
  | nop
  | txb (imm8 : Byte)
  | trig
  | meas
  deriving DecidableEq, Repr

/-- Why a word is illegal (rule R76; the three kinds of the "why" column of V-CP-6). All have one effect (log entry
14). -/
inductive IllegalWord where
  /-- OP = 0x4 to 0xF. -/
  | unassignedOpcode
  /-- A legal OP with RSV ≠ 0. -/
  | reservedFieldSet
  /-- OP = 0x0, 0x2 or 0x3 with RSV = 0 and IMM8 ≠ 0. -/
  | operandFieldSet
  deriving DecidableEq, Repr

/-- What a 16-bit word decodes to (rule R74): one of the four commands, or ILLEGAL. -/
inductive Decoded where
  | legal (i : Instr)
  | illegal (why : IllegalWord)
  deriving DecidableEq, Repr

/-- The statements of the assembler (rule R77). Numbers are as written, before the range check; the characters
of TXS are the bytes that rule R79 gives them. -/
inductive Stmt where
  | nop
  | txb (imm : Nat)
  | trig
  | meas
  | word (w : Nat)
  | txs (text : List Byte)
  | ping
  deriving DecidableEq, Repr

end Sys2Proof
end

