-- ==== Sys2Proof/WellFormed.lean ====
section
/-! DEFINITION. What must hold of a term before it means anything: the operand ranges of rule R77 for assembler
statements. A command (`Instr`) carries its operand as a byte, so its type admits the legal commands only, and
a configuration is checked by `Config.Parameters.Legal` (rule R9). -/

namespace Sys2Proof

/-- Every command is well formed: IMM8 is 8 bits by its type (rules R71 and R73). -/
def Instr.wellFormed : Instr → Bool
  | .nop => true
  | .txb _ => true
  | .trig => true
  | .meas => true

/-- The constraint column of rule R77: `TXB imm` with imm in 0..255, `.word w` with w in 0..0xFFFF. -/
def Stmt.wellFormed : Stmt → Bool
  | .nop => true
  | .txb imm => decide (imm ≤ 255)
  | .trig => true
  | .meas => true
  | .word w => decide (w ≤ 65535)
  | .txs _ => true
  | .ping => true

end Sys2Proof
end

