-- ==== Sys2Proof/Decode.lean ====
section
/-! DEFINITION. The format CMD16 (rule R71, spec/30_encoding.md), the total decode function (R74), the opcode map
(R75) and the encoder written from it. A command is one 16-bit word, taken whole from the `cmd` port (R72). -/

namespace Sys2Proof

/-- OP = cmd[15:12] (R71). -/
def opField (w : Word) : BitVec 4 := w.extractLsb' 12 4

/-- RSV = cmd[11:8] (R71). -/
def rsvField (w : Word) : BitVec 4 := w.extractLsb' 8 4

/-- IMM8 = cmd[7:0] (R71, R73). -/
def immField (w : Word) : Byte := w.extractLsb' 0 8

/-- A row whose only legal word has RSV = 0 and IMM8 = 0 (NOP, TRIG, MEAS in R74). -/
def decodePlain (i : Instr) (w : Word) : Decoded :=
  if rsvField w ≠ 0 then .illegal .reservedFieldSet
  else if immField w ≠ 0 then .illegal .operandFieldSet
  else .legal i

/-- The decode function of rule R74, total on the 65536 words. -/
def decode (w : Word) : Decoded :=
  if opField w = 0x0#4 then decodePlain .nop w
  else if opField w = 0x1#4 then
    if rsvField w ≠ 0 then .illegal .reservedFieldSet else .legal (.txb (immField w))
  else if opField w = 0x2#4 then decodePlain .trig w
  else if opField w = 0x3#4 then decodePlain .meas w
  else .illegal .unassignedOpcode

/-- A row of the opcode map of rule R75: w is the row's command when (w AND mask) = pattern. -/
structure OpcodeRow where
  mnemonic : String
  pattern : Word
  mask : Word
  deriving DecidableEq, Repr

/-- The opcode map of rule R75 (spec/opcode_table.json). -/
def opcodeRows : List OpcodeRow :=
  [ ⟨"NOP", 0x0000#16, 0xFFFF#16⟩
  , ⟨"TXB", 0x1000#16, 0xFF00#16⟩
  , ⟨"TRIG", 0x2000#16, 0xFFFF#16⟩
  , ⟨"MEAS", 0x3000#16, 0xFFFF#16⟩ ]

/-- Whether the word w is a command of the row (R75). -/
def OpcodeRow.covers (r : OpcodeRow) (w : Word) : Bool := (w &&& r.mask) == r.pattern

/-- The row of each command (R75). -/
def Instr.row : Instr → OpcodeRow
  | .nop => ⟨"NOP", 0x0000#16, 0xFFFF#16⟩
  | .txb _ => ⟨"TXB", 0x1000#16, 0xFF00#16⟩
  | .trig => ⟨"TRIG", 0x2000#16, 0xFFFF#16⟩
  | .meas => ⟨"MEAS", 0x3000#16, 0xFFFF#16⟩

/-- The word of a command, from the "encodes to" column of rule R77 and the map of R75. -/
def encode : Instr → Word
  | .nop => 0x0000#16
  | .txb imm8 => 0x1000#16 ||| imm8.setWidth 16
  | .trig => 0x2000#16
  | .meas => 0x3000#16

/-- The 16-bit word the host drives on `cmd` for an instruction whose low `nbits` bits are `w`, the bits above
them zero. -/
def commandWord (nbits w : Nat) : Word := BitVec.ofNat 16 (w % 2 ^ nbits)

/-- The command that the decoder reads from an instruction given as its low `nbits` bits. A command is exactly
one word (R72), so bits beyond the sixteenth are no command. -/
def decodeTableWord (nbits w : Nat) : Option Instr :=
  if w % 2 ^ nbits < 65536 then
    match decode (commandWord nbits w) with
    | .legal i => some i
    | .illegal _ => none
  else none

end Sys2Proof
end

