-- ==== Sys2Proof/Machine/State.lean ====
section
/-! DEFINITION. The state of BBTX-PT: exactly the registers of rule R19 (spec/10_state.md), their reset values (R52),
and the model's own record of the inputs to come. Plain data throughout. -/

namespace Sys2Proof.Machine

open Sys2Proof.Config

/-- PT_PHASE, the phase of the measurement engine (R31). The encoding 3 is unreachable, and the type has exactly
the three values (decision D30). -/
inductive PtPhase where
  | idle | rise | fall
  deriving DecidableEq, Repr

/-- PT_STAT, the state of the last measurement (R32, R48). -/
inductive PtStat where
  | none | run | ok | tmo
  deriving DecidableEq, Repr

/-- The registers of the block, for a counter of `cw` bits (CW) and a synchroniser of `stages` flip-flops (S).
Rules R24 to R41; each field's docstring names its rule (log entries 9 and 10). -/
structure Block (cw stages : Nat) where
  /-- tx_out, the serial line (R24). -/
  txOut : Bool
  /-- TX_ACT, a frame is being sent (R25). -/
  txAct : Bool
  /-- TX_IDX, the bit period on the line (R26): 0 to 9 only, by its type (decision D30). -/
  txIdx : Fin 10
  /-- TX_CNT, cycles already spent in the bit period (R27). -/
  txCnt : BitVec 16
  /-- TX_DATA, the byte being sent (R28). -/
  txData : Byte
  /-- trig_out, the trigger line (R29). -/
  trigOut : Bool
  /-- TRG_CNT, cycles of the pulse that remain after the current one (R30). -/
  trgCnt : BitVec 16
  /-- PT_PHASE (R31). -/
  ptPhase : PtPhase
  /-- PT_STAT (R32). -/
  ptStat : PtStat
  /-- TA, the rise-wait budget counter (R33). -/
  ta : Wide
  /-- TB, the fall-wait budget counter (R34). -/
  tb : Wide
  /-- CNT, the free-running counter, CW bits (R35). -/
  cnt : BitVec cw
  /-- PSC, the prescaler phase (R36). -/
  psc : BitVec 16
  /-- TOV, the counter's overflow flag (R37). -/
  tov : Bool
  /-- OVF, the overflow counter, 32 − CW bits (R38). -/
  ovf : BitVec (32 - cw)
  /-- DUR, the result of the last measurement in ticks (R39). -/
  dur : Wide
  /-- ERR, the sticky illegal-command flag (R40). -/
  err : Bool
  /-- SYNC[1..S]; SYNC[k] is bit k − 1 (R41). -/
  sync : BitVec stages
  deriving DecidableEq, Repr

/-- The reset state of rule R52, for any CW and S. -/
def resetBlock {cw stages : Nat} : Block cw stages where
  txOut := true
  txAct := false
  txIdx := 0
  txCnt := 0
  txData := 0x00#8
  trigOut := false
  trgCnt := 0
  ptPhase := .idle
  ptStat := .none
  ta := 0
  tb := 0
  cnt := 0
  psc := 0
  tov := false
  ovf := 0
  dur := 0
  err := false
  sync := 0

/-- The whole machine: this hardware's block (CW = 8, S = 2, R7) and the inputs that the outside world will drive.
The last two fields are the MODEL's own, not registers of the block (log entry 2). -/
structure State extends Block Config.counterWidth Config.syncStages where
  /-- The inputs already settled for the coming cycles, the current cycle first. Where the list is empty, a
  cycle's inputs are the free draw `Config.drawPins`. -/
  script : List Pins
  /-- How many steps the machine has taken: the index of the free draw. Not a register; `rst` leaves it alone. -/
  elapsed : Nat
  deriving DecidableEq, Repr

/-- The machine right after reset: every register as in rule R52 (log entry 4), no input settled. `elapsed` = 0 is the model's
own starting index (DESIGN CHOICE, log entry 2). -/
def State.reset : State :=
  { toBlock := resetBlock, script := [], elapsed := 0 }

/-- Reasons for the machine to stop. There is none: the block has no traps (R125), its two errors are status
values after which it goes on (R120, R122), it cannot hang (R18), and every step has a next state (R115). Safe: a
step of this model never claims to stop where the hardware goes on, and the hardware never stops. -/
inductive Fault where
  deriving DecidableEq, Repr

/-- Reasons for the model to give an instruction no meaning. -/
inductive Refusal where
  /-- Raised by an arm of `exec` whose instruction has no meaning yet; no arm raises it now. Safe. -/
  | notModelled (mnemonic : String)
  deriving DecidableEq, Repr

/-- The two error conditions of rule R120. -/
inductive ErrorKind where
  | measTimeout
  | illegalCommand
  deriving DecidableEq, Repr

end Sys2Proof.Machine
end

