-- ==== Sys2Proof/Machine/Flags.lean ====
section
/-! DEFINITION. The signals derived from the state (section 6 of spec/10_state.md, rules R43 to R48): they hold
nothing and reading them changes nothing (R61). -/

namespace Sys2Proof.Machine

open Sys2Proof.Config

variable {cw stages : Nat}

/-- The 2-bit encoding of PT_PHASE (R31). -/
def PtPhase.code : PtPhase → BitVec 2
  | .idle => 0
  | .rise => 1
  | .fall => 2

/-- The 2-bit code of PT_STAT (R48). -/
def PtStat.code : PtStat → BitVec 2
  | .none => 0
  | .run => 1
  | .ok => 2
  | .tmo => 3

/-- RUN: the counter runs exactly in Phase B (R43). -/
def counterRuns (b : Block cw stages) : Bool := b.ptPhase == .fall

/-- TX_LAST: the last cycle of a stop bit (R44). -/
def txLast (c : Parameters) (b : Block cw stages) : Bool :=
  b.txAct && b.txIdx == 9 && b.txCnt.toNat == c.bitCycles - 1

/-- TRIG_ACT = trig_out (R45). -/
def trigAct (b : Block cw stages) : Bool := b.trigOut

/-- BUSY: some operation is in progress (R46). -/
def busy (b : Block cw stages) : Bool := b.txAct || b.trigOut || b.ptPhase != .idle

/-- TXB_READY, STATUS bit 6 (R47). -/
def txbReady (c : Parameters) (b : Block cw stages) : Bool := !busy b || txLast c b

/-- The STATUS word (R47): bits 15:7 read 0, then TXB_READY, ERR, PT_STAT (2 bits), TRIG_ACT, TX_ACT, BUSY. -/
def status (c : Parameters) (b : Block cw stages) : Word :=
  0#9 ++ (BitVec.ofBool (txbReady c b) ++ (BitVec.ofBool b.err ++ (b.ptStat.code ++
    (BitVec.ofBool (trigAct b) ++ (BitVec.ofBool b.txAct ++ BitVec.ofBool (busy b))))))

/-- Quiescent: no operation in progress (R18). -/
def quiescent (b : Block cw stages) : Bool := !busy b

end Sys2Proof.Machine
end

