-- ==== Sys2Proof/Machine/Operands.lean ====
section
/-! DEFINITION. What the commands and the engines read besides registers: the operand IMM8 (rule R73), the levels of a
frame (R80), and the synchronised echo sample (R41 and R42). -/

namespace Sys2Proof.Machine

/-- The operand of a command: TXB's byte, taken unchanged; NOP, TRIG and MEAS take none (R73). -/
def operandByte : Instr → Option Byte
  | .nop => none
  | .txb imm8 => some imm8
  | .trig => none
  | .meas => none

/-- `level(i)` of rule R80: the start bit 0, then d0 to d7 (least significant bit first, R57), then the stop
bit 1. -/
def frameLevel (data : Byte) (i : Fin 10) : Bool :=
  if i.val = 0 then false
  else if i.val ≤ 8 then data.getLsbD (i.val - 1)
  else true

/-- `echo_s`, the level the PT step of this cycle reads: SYNC[S] when S ≥ 1, `echo_pin` when S = 0 (R42).
A clean level in every cycle (log entry 13). -/
def echoSample {stages : Nat} (sync : BitVec stages) (echoPin : Bool) : Bool :=
  if 1 ≤ stages then sync.getLsbD (stages - 1) else echoPin

/-- The synchroniser's next value: SYNC[1] <- echo_pin, SYNC[k] <- SYNC[k-1] (R41). -/
def syncShift {stages : Nat} (sync : BitVec stages) (echoPin : Bool) : BitVec stages :=
  (sync.concat echoPin).setWidth stages

end Sys2Proof.Machine
end

