-- ==== Sys2Proof/Machine/Ops.lean ====
section
/-! DEFINITION. The named operations over the registers that the commands and the engines share: reporting an error
(the block's only "exception", rules R14 and R120), the writes an accepted command schedules, the echo
synchroniser, and the inputs of the current cycle. There is no memory and there are no addresses (R54), and there
is no trap to enter or to return from (R125 and R126). -/

namespace Sys2Proof.Machine

open Sys2Proof.Config

variable {cw stages : Nat}

/-- `raise Error(kind)` (R14): the status writes of rule R120 and nothing else. No state is saved, no mode changes
and control goes nowhere (R125). -/
def raiseError (k : ErrorKind) (b : Block cw stages) : Block cw stages :=
  match k with
  | .measTimeout => { b with ptStat := .tmo, dur := 0 }
  | .illegalCommand => { b with err := true }

/-- The writes of an accepted TXB (R82): the start bit begins in the next cycle. -/
def startFrame (data : Byte) (b : Block cw stages) : Block cw stages :=
  { b with txData := data, txAct := true, txIdx := 0, txCnt := 0, txOut := false }

/-- The writes of an accepted TRIG (R92). -/
def startPulse (c : Parameters) (b : Block cw stages) : Block cw stages :=
  { b with trigOut := true, trgCnt := BitVec.ofNat 16 (c.trigCycles - 1) }

/-- The writes of an accepted MEAS (R97). -/
def startMeasurement (c : Parameters) (b : Block cw stages) : Block cw stages :=
  { b with ptPhase := .rise, ptStat := .run, ta := BitVec.ofNat 32 c.riseBudget, dur := 0, ovf := 0 }

/-- Part 5 of the cycle step (R115): the synchroniser takes in `echo_pin` (R41). -/
def latchEcho (echoPin : Bool) (b : Block cw stages) : Block cw stages :=
  { b with sync := syncShift b.sync echoPin }

/-- The inputs of the current cycle: the settled ones, else a free draw (R116). -/
def State.pins (s : State) : Pins :=
  match s.script with
  | p :: _ => p
  | [] => drawPins s.elapsed

/-- The same machine with other inputs in the current cycle. -/
def State.withPins (s : State) (p : Pins) : State :=
  { s with script := p :: s.script.tail }

/-- The same inputs with other registers. -/
def State.withBlock (s : State) (b : Block counterWidth syncStages) : State :=
  { s with toBlock := b }

/-- The clock edge on the side of the inputs: the current cycle's inputs are spent (R13). -/
def State.nextCycle (s : State) : State :=
  { s with script := s.script.tail, elapsed := s.elapsed + 1 }

/-- The host drives a command word in the current cycle: `rst` = 0, `cmd_valid` = 1, `cmd` = w (R110). The echo
level stays what it was. -/
def State.offer (s : State) (w : Word) : State :=
  s.withPins { s.pins with rst := false, cmdValid := true, cmd := w }

end Sys2Proof.Machine
end

