-- ==== Sys2Proof/Machine/CommandPort.lean ====
section
/-! DEFINITION. The command port (spec/42_command_port.md): the acceptance handshake (rules R110 and R111), the output
ports (R23), the meaning of NOP (R113) and the effect of an illegal word (R114). -/

namespace Sys2Proof.Machine

open Sys2Proof.Config

variable {cw stages : Nat}

/-- `ready(k)` on the state of the current cycle (R111). -/
def ready (c : Parameters) (k : Decoded) (b : Block cw stages) : Bool :=
  match k with
  | .legal .nop => true
  | .legal (.txb _) => txbReady c b
  | .legal .trig => !busy b
  | .legal .meas => !busy b
  | .illegal _ => true

/-- `cmd_ready` (R110): combinational in the state and the word now on `cmd` (decision D33). -/
def cmdReady (c : Parameters) (p : Pins) (b : Block cw stages) : Bool :=
  !p.rst && ready c (decode p.cmd) b

/-- The command accepted in this cycle, if any (R110). -/
def accepted (c : Parameters) (p : Pins) (b : Block cw stages) : Option Decoded :=
  if p.cmdValid && cmdReady c p b then some (decode p.cmd) else none

/-- The output ports (R23). -/
structure Outputs where
  txOut : Bool
  trigOut : Bool
  cmdReady : Bool
  status : Word
  dur : Wide
  deriving DecidableEq, Repr

/-- What the ports show in a cycle with inputs p (R23, R47). Reading has no side effect (R61). -/
def outputs (c : Parameters) (p : Pins) (b : Block cw stages) : Outputs :=
  { txOut := b.txOut, trigOut := b.trigOut, cmdReady := cmdReady c p b, status := status c b, dur := b.dur }

/-- NOP, once accepted: it schedules no write (R113). -/
def execNop (s : State) : Host.Outcome State Fault Refusal := .next s

/-- The effect of an accepted illegal word: ERR <- 1, and nothing else; the word's bits are not kept (R114). -/
def illegalEffect (b : Block cw stages) : Block cw stages := raiseError .illegalCommand b

end Sys2Proof.Machine
end

