-- ==== Sys2Proof/Machine/PulseTimer.lean ====
section
/-! DEFINITION. The pulse timer family (spec/41_pulse_timer.md): the trigger step (rule R93), the free-running counter
(R95), the steps of the two waiting phases (R98 to R100), and the meanings of TRIG (R92) and MEAS (R97). -/

namespace Sys2Proof.Machine

open Sys2Proof.Config

variable {cw stages : Nat}

/-- The trigger step (R93). -/
def trigStep (b : Block cw stages) : Block cw stages :=
  if b.trigOut then
    if b.trgCnt = 0 then { b with trigOut := false } else { b with trgCnt := b.trgCnt - 1 }
  else b

/-- `tick` of rule R95: the prescaler is in its last phase. -/
def tick (c : Parameters) (b : Block cw stages) : Bool := b.psc.toNat == c.prescale - 1

/-- `wrap` of rule R95: CNT goes from MOD − 1 to 0 at this edge. -/
def wrap (c : Parameters) (b : Block cw stages) : Bool := tick c b && b.cnt == BitVec.allOnes cw

/-- One counting step (R95): OVF takes the wrap seen before, and a new wrap sets TOV even as the old one is
cleared (R96). -/
def countingStep (c : Parameters) (b : Block cw stages) : Block cw stages :=
  { b with
    psc := if tick c b then 0 else b.psc + 1
    cnt := if tick c b then b.cnt + 1 else b.cnt
    ovf := b.ovf + BitVec.ofNat (32 - cw) b.tov.toNat
    tov := wrap c b }

/-- (OVF + TOV) × MOD + CNT, formed at 32 bits (R100 and R101). -/
def extendedCount (b : Block cw stages) : Wide :=
  (b.ovf.setWidth 32 + BitVec.ofNat 32 b.tov.toNat) * BitVec.ofNat 32 (2 ^ cw) + b.cnt.setWidth 32

/-- The Phase A step (R99) on the sample e: the line is tested before the budget is decremented. -/
def riseStep (c : Parameters) (e : Bool) (b : Block cw stages) : Block cw stages :=
  if e then
    { b with ptPhase := .fall, cnt := 0, psc := 0, tov := false, ovf := 0,
             tb := BitVec.ofNat 32 c.fallBudget }
  else if b.ta = 1 then
    raiseError .measTimeout { b with ta := 0, ptPhase := .idle }
  else { b with ta := b.ta - 1 }

/-- The rest of the Phase B step (R100) after its counting step: `b` holds CNT', PSC', TOV' and OVF'. -/
def fallOutcome (e : Bool) (b : Block cw stages) : Block cw stages :=
  if e then
    if b.tb = 1 then raiseError .measTimeout { b with tb := 0, ptPhase := .idle }
    else { b with tb := b.tb - 1 }
  else { b with dur := extendedCount b, ptPhase := .idle, ptStat := .ok }

/-- The Phase B step (R100): first one counting step, then the fall, the timeout or the decrement. -/
def fallStep (c : Parameters) (e : Bool) (b : Block cw stages) : Block cw stages :=
  fallOutcome e (countingStep c b)

/-- The PT engine step on the sample e (R98). -/
def ptStep (c : Parameters) (e : Bool) (b : Block cw stages) : Block cw stages :=
  match b.ptPhase with
  | .idle => b
  | .rise => riseStep c e b
  | .fall => fallStep c e b

/-- TRIG, once accepted (R92): it starts no measurement (conflict C1). -/
def execTrig (s : State) : Host.Outcome State Fault Refusal :=
  .next (s.withBlock (startPulse params s.toBlock))

/-- MEAS, once accepted (R97): it starts no trigger pulse (conflict C1). -/
def execMeas (s : State) : Host.Outcome State Fault Refusal :=
  .next (s.withBlock (startMeasurement params s.toBlock))

end Sys2Proof.Machine
end

