-- ==== Sys2Proof/Machine/Transmitter.lean ====
section
/-! DEFINITION. The transmitter family (spec/40_transmitter.md): the per-cycle step of the TX engine (rule R83) and the
meaning of TXB (R82). -/

namespace Sys2Proof.Machine

open Sys2Proof.Config

variable {cw stages : Nat}

/-- The TX engine step (R83). It reads and writes TX registers only (R90). -/
def txStep (c : Parameters) (b : Block cw stages) : Block cw stages :=
  if b.txAct then
    if b.txCnt.toNat = c.bitCycles - 1 then
      if b.txIdx = 9 then
        { b with txAct := false, txIdx := 0, txCnt := 0, txOut := true }
      else
        { b with txIdx := b.txIdx + 1, txCnt := 0, txOut := frameLevel b.txData (b.txIdx + 1) }
    else { b with txCnt := b.txCnt + 1 }
  else b

/-- TXB imm8, once accepted (R82): it cannot fail, and touches no PT register and no ERR. Its acceptance is
`ready` of Machine/CommandPort.lean (R111). -/
def execTxb (imm8 : Byte) (s : State) : Host.Outcome State Fault Refusal :=
  .next (s.withBlock (startFrame imm8 s.toBlock))

end Sys2Proof.Machine
end

