-- ==== Sys2Proof/Machine/Dispatch.lean ====
section
/-! DEFINITION. The effect of an accepted command (part 4 of the cycle step, rule R115; log entry 12): one arm per
command. -/

namespace Sys2Proof.Machine

def exec (i : Instr) (s : State) : Host.Outcome State Fault Refusal :=
  match i with
  | .nop => Sys2Proof.Machine.execNop s
  | .txb imm8 => Sys2Proof.Machine.execTxb imm8 s
  | .trig => Sys2Proof.Machine.execTrig s
  | .meas => Sys2Proof.Machine.execMeas s

end Sys2Proof.Machine
end

