-- ==== Sys2Proof/Machine/Cycle.lean ====
section
/-! DEFINITION. The single cycle step of rule R115 (spec/42_command_port.md): as a function of any parameters, inputs and
registers (`cycle`), and as the machine's clock edge, which runs an accepted command through `exec`
(`clockEdge`). -/

namespace Sys2Proof.Machine

open Sys2Proof.Config

variable {cw stages : Nat}

/-- Parts 1 to 3 of the cycle step (R115) on the sample e. Each engine reads and writes registers of its own
(R90), so applying them one after another is the simultaneous step of R14 (DEDUCED, log entry 11). -/
def engines (c : Parameters) (e : Bool) (b : Block cw stages) : Block cw stages :=
  ptStep c e (trigStep (txStep c b))

/-- Part 4 for a command (R115): R113, R82, R92 and R97. -/
def commandEffect (c : Parameters) (i : Instr) (b : Block cw stages) : Block cw stages :=
  match i with
  | .nop => b
  | .txb imm8 => startFrame imm8 b
  | .trig => startPulse c b
  | .meas => startMeasurement c b

/-- Part 4 for any accepted word, ILLEGAL included (R114, R115). -/
def wordEffect (c : Parameters) (k : Decoded) (b : Block cw stages) : Block cw stages :=
  match k with
  | .legal i => commandEffect c i b
  | .illegal _ => illegalEffect b

/-- `step(s, rst, cmd_valid, cmd, echo_pin)` of rule R115. Acceptance and the sample are taken on b; an accepted
command writes after the engines and so wins (R15). -/
def cycle (c : Parameters) (p : Pins) (b : Block cw stages) : Block cw stages :=
  if p.rst then resetBlock
  else
    let moved := engines c (echoSample b.sync p.echoPin) b
    latchEcho p.echoPin
      (match accepted c p b with
       | none => moved
       | some k => wordEffect c k moved)

/-- Part 5 (R115) and the passing of the cycle, after parts 1 to 4. -/
def State.endCycle (s : State) (p : Pins) : State :=
  (s.withBlock (latchEcho p.echoPin s.toBlock)).nextCycle

/-- One clock edge of this hardware on the inputs of the current cycle: rule R115 with the effect of an accepted
command given by `exec`. -/
def clockEdge (s : State) : Host.Outcome State Fault Refusal :=
  let p := s.pins
  if p.rst then .next (s.withBlock resetBlock).nextCycle
  else
    let moved := s.withBlock (engines params (echoSample s.sync p.echoPin) s.toBlock)
    match accepted params p s.toBlock with
    | none => .next (moved.endCycle p)
    | some (.illegal _) => .next ((moved.withBlock (illegalEffect moved.toBlock)).endCycle p)
    | some (.legal i) =>
      match exec i moved with
      | .next t => .next (t.endCycle p)
      | .fault f => .fault f
      | .refused r => .refused r

end Sys2Proof.Machine
end

