-- ==== Sys2Proof/Machine/Step.lean ====
section
/-! DEFINITION. The machine's step: one clock edge (rules R13 and R115), and how the host's next command word is placed
where the step takes it. -/

namespace Sys2Proof.Machine

/-- One step is the state change at the edge that ends the current cycle (R13). -/
def step (s : State) : Host.Outcome State Fault Refusal := clockEdge s

/-- The host offers the word in the current cycle, on the command port: the block fetches nothing (R21, R68), so
this is the one place a command comes from (log entry 3). A block that is busy holds TXB, TRIG and MEAS (R111). -/
def State.withFetchWord (s : State) (nbits w : Nat) : State := s.offer (commandWord nbits w)

end Sys2Proof.Machine
end

