-- ==== Sys2Proof/Machine/Assembler.lean ====
section
/-! DEFINITION. The assembler of rules R77 to R79 (spec/30_encoding.md): the host's way of writing command words. It
stands outside the block, which sends any byte (item X2). -/

namespace Sys2Proof.Machine

/-- Why a line is rejected. A rejected line emits nothing (R77). -/
inductive AsmError where
  /-- No statement of R77 has this mnemonic. -/
  | unknownMnemonic
  /-- An operand outside the range of R77. -/
  | operandOutOfRange
  /-- An operand on NOP, TRIG, MEAS or PING, or more than one statement on a line. -/
  | unexpectedOperand
  /-- TXB, TXS or `.word` without an operand. -/
  | missingOperand
  /-- An operand of the wrong form, a number with no digit or a wrong digit among them. -/
  | badOperand
  /-- A quoted text that does not close, holds an escape R79 does not list, or a character above 0x7F. -/
  | badText
  deriving DecidableEq, Repr

/-! ### From statements to words -/

/-- The expansion of a statement into commands and raw words (R77 and R78): TXS is one TXB per character, in
order; PING is TRIG followed by MEAS. -/
def assembleStmt : Stmt → Except AsmError (List Word)
  | .nop => .ok [encode .nop]
  | .txb imm => if imm ≤ 255 then .ok [encode (.txb (BitVec.ofNat 8 imm))] else .error .operandOutOfRange
  | .trig => .ok [encode .trig]
  | .meas => .ok [encode .meas]
  | .word w => if w ≤ 65535 then .ok [BitVec.ofNat 16 w] else .error .operandOutOfRange
  | .txs text => .ok (text.map fun b => encode (.txb b))
  | .ping => .ok [encode .trig, encode .meas]

/-! ### Characters and numbers -/

/-- `code(c)` of rule R79 (ASCII: PRESUMED, log entry 6); a character above 0x7F is rejected. -/
def asciiCode (c : Char) : Option Byte :=
  if c.toNat ≤ 0x7F then some (BitVec.ofNat 8 c.toNat) else none

/-- The value of a digit in any base up to 16; both cases of a hexadecimal letter (log entry 7). -/
def digitValue (c : Char) : Option Nat :=
  let n := c.toNat
  if 0x30 ≤ n ∧ n ≤ 0x39 then some (n - 0x30)
  else if 0x41 ≤ n ∧ n ≤ 0x46 then some (n - 0x37)
  else if 0x61 ≤ n ∧ n ≤ 0x66 then some (n - 0x57)
  else none

/-- A digit of the given base. -/
def digitIn (base : Nat) (c : Char) : Option Nat :=
  match digitValue c with
  | some d => if d < base then some d else none
  | none => none

/-- The value of a run of digits, continuing from `acc`. -/
def digitsFrom (base acc : Nat) : List Char → Option Nat
  | [] => some acc
  | c :: rest =>
    match digitIn base c with
    | some d => digitsFrom base (acc * base + d) rest
    | none => none

/-- A number with at least one digit. -/
def digits (base : Nat) : List Char → Option Nat
  | [] => none
  | c :: rest => digitsFrom base 0 (c :: rest)

/-- A number is decimal, `0x` hexadecimal or `0b` binary (R77). -/
def number : List Char → Option Nat
  | '0' :: 'x' :: rest => digits 16 rest
  | '0' :: 'b' :: rest => digits 2 rest
  | cs => digits 10 cs

/-- The escapes of rule R79, by the character after the backslash; `\x` is read by `readQuoted`. -/
def escapeByte (c : Char) : Option Byte :=
  if c = 'r' then some 0x0D#8
  else if c = 'n' then some 0x0A#8
  else if c.toNat = 0x5C then some 0x5C#8
  else if c.toNat = 0x22 then some 0x22#8
  else if c.toNat = 0x27 then some 0x27#8
  else none

/-- How far the reading of a quoted text has come: plainly, after a backslash, or in the digits of `\xHH`. -/
inductive QuoteMode where
  | plain
  | escape
  | hexHigh
  | hexLow (high : Nat)
  deriving DecidableEq, Repr

/-- The bytes of a quoted text up to its closing quote, and what follows it (R79). -/
def readQuoted (quote : Char) : QuoteMode → List Byte → List Char → Option (List Byte × List Char)
  | _, _, [] => none
  | .plain, acc, c :: rest =>
    if c = quote then some (acc, rest)
    else if c.toNat = 0x5C then readQuoted quote .escape acc rest
    else match asciiCode c with
      | some b => readQuoted quote .plain (acc ++ [b]) rest
      | none => none
  | .escape, acc, c :: rest =>
    if c = 'x' then readQuoted quote .hexHigh acc rest
    else match escapeByte c with
      | some b => readQuoted quote .plain (acc ++ [b]) rest
      | none => none
  | .hexHigh, acc, c :: rest =>
    match digitIn 16 c with
    | some h => readQuoted quote (.hexLow h) acc rest
    | none => none
  | .hexLow h, acc, c :: rest =>
    match digitIn 16 c with
    | some l => readQuoted quote .plain (acc ++ [BitVec.ofNat 8 (h * 16 + l)]) rest
    | none => none

/-! ### Lines -/

/-- A piece of a line: a run of plain characters, a text in double quotes, or a character literal's bytes. -/
inductive Token where
  | bare (cs : List Char)
  | text (bytes : List Byte)
  | literal (bytes : List Byte)
  deriving DecidableEq, Repr

/-- White space between the parts of a statement (log entry 7: space and tab). -/
def isBlank (c : Char) : Bool := c.toNat = 0x20 || c.toNat = 0x09

/-- Adds the run of plain characters read so far, if any, as a token. -/
def flush (run : List Char) (out : List Token) : List Token :=
  if run.isEmpty then out else out ++ [.bare run]

/-- Cuts a line into tokens; text from `;` outside quotes to the end of the line is a comment (R77, log entry
7). `fuel` bounds the number of characters. -/
def tokens : Nat → List Char → List Token → List Char → Except AsmError (List Token)
  | _, run, out, [] => .ok (flush run out)
  | 0, _, _, _ :: _ => .error .badText
  | fuel + 1, run, out, c :: rest =>
    if c = ';' then .ok (flush run out)
    else if isBlank c then tokens fuel [] (flush run out) rest
    else if c.toNat = 0x22 then
      match readQuoted c .plain [] rest with
      | some (bs, rest') => tokens fuel [] (flush run out ++ [.text bs]) rest'
      | none => .error .badText
    else if c.toNat = 0x27 then
      match readQuoted c .plain [] rest with
      | some (bs, rest') => tokens fuel [] (flush run out ++ [.literal bs]) rest'
      | none => .error .badText
    else tokens fuel (run ++ [c]) out rest

/-- The mnemonics, case-insensitive (R77). -/
def upper (c : Char) : Char := if 0x61 ≤ c.toNat ∧ c.toNat ≤ 0x7A then Char.ofNat (c.toNat - 0x20) else c

/-- The numeric operand of TXB or `.word`: a number, or for TXB a character literal (R77). -/
def operandNumber (allowLiteral : Bool) : List Token → Except AsmError Nat
  | [] => .error .missingOperand
  | [.bare cs] =>
    match number cs with
    | some n => .ok n
    | none => .error .badOperand
  | [.literal [b]] => if allowLiteral then .ok b.toNat else .error .badOperand
  | [_] => .error .badOperand
  | _ :: _ :: _ => .error .unexpectedOperand

/-- The text operand of TXS (R77). -/
def operandText : List Token → Except AsmError (List Byte)
  | [] => .error .missingOperand
  | [.text bs] => .ok bs
  | [_] => .error .badOperand
  | _ :: _ :: _ => .error .unexpectedOperand

/-- A statement that takes no operand (R77). -/
def plainStmt (s : Stmt) (operands : List Token) : Except AsmError Stmt :=
  if operands.isEmpty then .ok s else .error .unexpectedOperand

/-- The statement of a line that has one (the table of R77). -/
def parseStmt (mnemonic : List Char) (operands : List Token) : Except AsmError Stmt :=
  let m := mnemonic.map upper
  if m = ['N', 'O', 'P'] then plainStmt .nop operands
  else if m = ['T', 'R', 'I', 'G'] then plainStmt .trig operands
  else if m = ['M', 'E', 'A', 'S'] then plainStmt .meas operands
  else if m = ['P', 'I', 'N', 'G'] then plainStmt .ping operands
  else if m = ['T', 'X', 'B'] then (operandNumber true operands).map .txb
  else if m = ['.', 'W', 'O', 'R', 'D'] then (operandNumber false operands).map .word
  else if m = ['T', 'X', 'S'] then (operandText operands).map .txs
  else .error .unknownMnemonic

/-- A line holds at most one statement (R77); an empty line or a comment holds none. -/
def parseLine (line : List Char) : Except AsmError (Option Stmt) :=
  match tokens line.length [] [] line with
  | .error e => .error e
  | .ok [] => .ok none
  | .ok (.bare m :: operands) => (parseStmt m operands).map some
  | .ok (.text _ :: _) => .error .unknownMnemonic
  | .ok (.literal _ :: _) => .error .unknownMnemonic

/-- The words of one line (R77). -/
def assembleLine (line : List Char) : Except AsmError (List Word) :=
  match parseLine line with
  | .error e => .error e
  | .ok none => .ok []
  | .ok (some s) => assembleStmt s

/-- The words of a program, line by line; a rejected line emits nothing (R77). -/
def assemble (lines : List (List Char)) : List Word :=
  lines.flatMap fun line =>
    match assembleLine line with
    | .ok ws => ws
    | .error _ => []

end Sys2Proof.Machine
end

