-- ==== Sys2Proof/Machine/HostProgram.lean ====
section
/-! DEFINITION. Runs of many cycles, and the host as an agent: the inputs that a host program offers (rules R17, R18 and
R140, and the host convention of 95_test_vectors.md), and what the echo engine samples. -/

namespace Sys2Proof.Machine

open Sys2Proof.Config

variable {cw stages : Nat}

/-- The registers after one cycle for each entry of `ps` (R115, applied once per cycle). -/
def runCycles (c : Parameters) : List Pins → Block cw stages → Block cw stages
  | [], b => b
  | p :: ps, b => runCycles c ps (cycle c p b)

/-- The registers in the cycle of each entry of `ps`, the first being b itself. -/
def cycleStates (c : Parameters) : List Pins → Block cw stages → List (Block cw stages)
  | [], _ => []
  | p :: ps, b => b :: cycleStates c ps (cycle c p b)

/-- The echo sample of each cycle of `ps`, from the synchroniser's present value (R41 and R42). -/
def echoSamples : BitVec stages → List Pins → List Bool
  | _, [] => []
  | sync, p :: ps => echoSample sync p.echoPin :: echoSamples (syncShift sync p.echoPin) ps

/-- A host that still has `words` to issue: their first is the word it offers (R17). -/
structure HostRun (cw stages : Nat) where
  words : List Word
  block : Block cw stages
  deriving DecidableEq, Repr

/-- What the host drives: its first word held valid, or nothing once it has none left (R140 and R141, log entry
15). -/
def hostPins (words : List Word) (echoPin : Bool) : Pins :=
  match words with
  | [] => { rst := false, cmdValid := false, cmd := 0, echoPin := echoPin }
  | w :: _ => { rst := false, cmdValid := true, cmd := w, echoPin := echoPin }

/-- One cycle of the host and the block: an accepted word is struck off (R141). -/
def hostCycle (c : Parameters) (echoPin : Bool) (r : HostRun cw stages) : HostRun cw stages :=
  let p := hostPins r.words echoPin
  { words := if cmdReady c p r.block then r.words.tail else r.words
    block := cycle c p r.block }

/-- A run of the host's program over the echo levels of `echo`, one per cycle. -/
def hostRun (c : Parameters) : List Bool → HostRun cw stages → HostRun cw stages
  | [], r => r
  | e :: es, r => hostRun c es (hostCycle c e r)

/-- A run is over when the host has no command left and the block is quiescent (R18). -/
def HostRun.over (r : HostRun cw stages) : Bool := r.words.isEmpty && quiescent r.block

end Sys2Proof.Machine
end

