-- ==== Sys2Proof/Safety.lean ====
section
/-! DEFINITION. What a sound state and an undisturbed run are, in the terms the statements use: the invariants I-1 to
I-7 of rule R53 (spec/10_state.md), and the inputs a run of the machine takes. -/

namespace Sys2Proof.Machine

open Sys2Proof.Config

variable {cw stages : Nat}

/-- I-1: PT_STAT = RUN exactly when PT_PHASE ≠ IDLE. -/
abbrev statusTracksPhase (b : Block cw stages) : Prop := b.ptStat = .run ↔ b.ptPhase ≠ .idle

/-- I-2: at most one operation at a time. -/
abbrev oneOperation (b : Block cw stages) : Prop :=
  ¬(b.txAct = true ∧ b.trigOut = true) ∧ ¬(b.txAct = true ∧ b.ptPhase ≠ .idle)
    ∧ ¬(b.trigOut = true ∧ b.ptPhase ≠ .idle)

/-- I-3: in FALL the counter holds the FALL steps taken since rise detection, which are N − TB (log entry 5). -/
abbrev counterExact (c : Parameters) (b : Block cw stages) : Prop :=
  b.ptPhase = .fall →
    b.psc.toNat = (c.fallBudget - b.tb.toNat) % c.prescale
    ∧ (b.ovf.toNat + b.tov.toNat) * 2 ^ cw + b.cnt.toNat = (c.fallBudget - b.tb.toNat) / c.prescale

/-- I-4: TX_CNT ≤ B − 1, TX_IDX ≤ 9, and TRG_CNT ≤ T − 1 during a pulse. -/
abbrev countsInRange (c : Parameters) (b : Block cw stages) : Prop :=
  b.txCnt.toNat ≤ c.bitCycles - 1 ∧ b.txIdx.val ≤ 9
    ∧ (b.trigOut = true → b.trgCnt.toNat ≤ c.trigCycles - 1)

/-- I-5: the serial line is idle high, or at the level of its bit period. -/
abbrev lineFollowsFrame (b : Block cw stages) : Prop :=
  (b.txAct = false → b.txOut = true) ∧ (b.txAct = true → b.txOut = frameLevel b.txData b.txIdx)

/-- I-6: the budget of the present phase is neither spent nor above its start. -/
abbrev budgetsInRange (c : Parameters) (b : Block cw stages) : Prop :=
  (b.ptPhase = .rise → 1 ≤ b.ta.toNat ∧ b.ta.toNat ≤ c.riseBudget)
    ∧ (b.ptPhase = .fall → 1 ≤ b.tb.toNat ∧ b.tb.toNat ≤ c.fallBudget)

/-- I-7: DUR = 0 unless the last measurement ended well. -/
abbrev resultZeroUnlessOk (b : Block cw stages) : Prop := b.ptStat ≠ .ok → b.dur = 0

/-- The invariants of rule R53 together. -/
abbrev BlockInv (c : Parameters) (b : Block cw stages) : Prop :=
  statusTracksPhase b ∧ oneOperation b ∧ counterExact c b ∧ countsInRange c b ∧ lineFollowsFrame b
    ∧ budgetsInRange c b ∧ resultZeroUnlessOk b

/-- The invariants of rule R53 of the machine, at its own parameters. -/
abbrev State.Inv (s : State) : Prop := BlockInv params s.toBlock

/-- The TX registers (section 3 of spec/10_state.md): tx_out, TX_ACT, TX_IDX, TX_CNT, TX_DATA. -/
def txRegisters (b : Block cw stages) : Bool × Bool × Fin 10 × BitVec 16 × Byte :=
  (b.txOut, b.txAct, b.txIdx, b.txCnt, b.txData)

/-- The trigger registers (section 4): trig_out, TRG_CNT. -/
def trigRegisters (b : Block cw stages) : Bool × BitVec 16 := (b.trigOut, b.trgCnt)

/-- The PT registers (section 5): PT_PHASE, PT_STAT, TA, TB, CNT, PSC, TOV, OVF, DUR. -/
def ptRegisters (b : Block cw stages) :
    PtPhase × PtStat × Wide × Wide × BitVec cw × BitVec 16 × Bool × BitVec (32 - cw) × Wide :=
  (b.ptPhase, b.ptStat, b.ta, b.tb, b.cnt, b.psc, b.tov, b.ovf, b.dur)

/-- The longest any operation keeps the block busy: the largest of 10 × B, T and M + N cycles (R152). -/
def busyBound (c : Parameters) : Nat :=
  max c.frameCycles (max c.trigCycles (c.riseBudget + c.fallBudget))

/-- No reset falls in the cycles of `ps`. -/
abbrev noReset (ps : List Pins) : Prop := ∀ p ∈ ps, p.rst = false

/-- The inputs of the next n cycles of the machine: the settled ones, then free draws (R116). -/
def State.inputs : Nat → State → List Pins
  | 0, _ => []
  | n + 1, s => s.pins :: State.inputs n s.nextCycle

end Sys2Proof.Machine
end

