-- ==== Sys2Proof/Certificates/Slice0/Obligations.lean ====
section
/-! DEFINITION. The statements for the provers. A statement over `c : Parameters` with `c.Legal` and a
`Block c.counterWidth c.syncStages` holds of every legal build (every B, T, P, M, N, CW and S of rule R7);
`RunIsTheCycleFunctionRepeated` carries it to the machine. Cycle a is the cycle in which a command is accepted; the
registers of cycle a + 1 + m are `runCycles c (ps.take m) (cycle c p b)`. -/

open Sys2Proof Sys2Proof.Machine Sys2Proof.Config

/-! ### Reset -/

/-- R52: every register's reset value, and what the ports read in the reset state. -/
def Obligations.ResetStateHoldsTheTableOfR52 : Prop :=
  (State.reset.toBlock =
    { txOut := true, txAct := false, txIdx := 0, txCnt := 0, txData := 0x00#8, trigOut := false,
      trgCnt := 0, ptPhase := .idle, ptStat := .none, ta := 0, tb := 0, cnt := 0, psc := 0,
      tov := false, ovf := 0, dur := 0, err := false, sync := 0 })
  ∧ status params State.reset.toBlock = 0x0040#16
  ∧ (∀ p : Pins, p.rst = true → cmdReady params p State.reset.toBlock = false)
  ∧ (∀ (s : State) (p : Pins), p.rst = true →
      ∃ t, step (s.withPins p) = .next t ∧ t.toBlock = State.reset.toBlock)

/-- R134: at an edge with `rst` = 1 every register takes its reset value whatever the other inputs are, and while
`rst` = 1 the port is not ready and nothing is accepted. -/
def Obligations.ResetEdgeWinsOverEverything : Prop :=
  ∀ (s : State) (p : Pins), p.rst = true →
    cmdReady params p s.toBlock = false ∧ accepted params p s.toBlock = none
    ∧ ∃ t, step (s.withPins p) = .next t ∧ t.toBlock = resetBlock ∧ t.txOut = true ∧ t.trigOut = false

/-! ### Encoding -/

/-- R74 to R76 and the examples of V-CP-6: a few words of each row, written out from the spec, and illegal ones. -/
def Obligations.WrittenOutWordsDecode : Prop :=
  decode 0b0000000000000000#16 = .legal .nop
  ∧ decode 0b0001000001000001#16 = .legal (.txb 0x41#8)
  ∧ decode 0b0010000000000000#16 = .legal .trig
  ∧ decode 0b0011000000000000#16 = .legal .meas
  ∧ (∃ why, decode 0x1141#16 = .illegal why)
  ∧ (∃ why, decode 0x3080#16 = .illegal why)
  ∧ (∃ why, decode 0xF000#16 = .illegal why)

/-- R74: every word decodes to exactly one of NOP, TXB, TRIG, MEAS and ILLEGAL, as its number says (0x0000,
0x1000 + byte, 0x2000, 0x3000, and every other). -/
def Obligations.DecodeReadsTheOpcodeMap : Prop :=
  ∀ w : Word,
    (decode w = .legal .nop ↔ w.toNat = 0x0000)
    ∧ (∀ d : Byte, decode w = .legal (.txb d) ↔ w.toNat = 0x1000 + d.toNat)
    ∧ (decode w = .legal .trig ↔ w.toNat = 0x2000)
    ∧ (decode w = .legal .meas ↔ w.toNat = 0x3000)
    ∧ ((∃ why, decode w = .illegal why) ↔
        w.toNat ≠ 0x0000 ∧ (w.toNat < 0x1000 ∨ 0x10FF < w.toNat) ∧ w.toNat ≠ 0x2000 ∧ w.toNat ≠ 0x3000)

/-- R76: a word is illegal exactly when it matches no row of the opcode map. -/
def Obligations.IllegalWordsAreThoseOfNoRow : Prop :=
  ∀ w : Word, (∃ why, decode w = .illegal why) ↔ ∀ r ∈ opcodeRows, r.covers w = false

/-- R75: there are 259 legal words. -/
def Obligations.ExactlyTwoHundredFiftyNineLegalWords : Prop :=
  ∃ l : List Word, l.Nodup ∧ l.length = 259 ∧ ∀ w : Word, w ∈ l ↔ ∃ i, decode w = .legal i

/-- Decode and encode agree, for every command and every operand (R74, R75, R77). -/
def Obligations.DecodeOfEncodeIsTheCommand : Prop :=
  ∀ i : Instr, i.wellFormed = true →
    decode (encode i) = .legal i ∧ decodeTableWord 16 (encode i).toNat = some i

/-- A legal word is the encoding of its command: no two words mean the same command (R74, R75). -/
def Obligations.EncodeOfDecodeIsTheWord : Prop :=
  ∀ (w : Word) (i : Instr), decode w = .legal i → encode i = w

/-! ### The step -/

/-- R115: one step of the machine is the cycle function on its registers and the cycle's inputs, with this
hardware's parameters; it never stops. The inputs are then those of the next cycle. -/
def Obligations.StepIsTheCycleFunction : Prop :=
  ∀ s : State, step s =
    .next { toBlock := cycle params s.pins s.toBlock, script := s.script.tail, elapsed := s.elapsed + 1 }

/-- Runs of the machine are the cycle function repeated over its inputs, from every state (R115, R116). -/
def Obligations.RunIsTheCycleFunctionRepeated : Prop :=
  ∀ (n : Nat) (s : State), Host.Core.run Sys2Proof.core n s =
    .next { toBlock := runCycles params (s.inputs n) s.toBlock, script := s.script.drop n,
            elapsed := s.elapsed + n }

/-- A step runs the decoded command: where the host's word decodes to a command and is accepted (R110), the step is
`exec` of it after the engines of that cycle, then the synchroniser (R115, parts 1 to 5). -/
def Obligations.StepRunsTheAcceptedCommand : Prop :=
  ∀ (s : State) (i : Instr), i.wellFormed = true → s.pins.rst = false → s.pins.cmdValid = true →
    decode s.pins.cmd = .legal i → ready params (.legal i) s.toBlock = true →
    ∃ t, exec i (s.withBlock (engines params (echoSample s.sync s.pins.echoPin) s.toBlock)) = .next t
      ∧ step s = .next (t.endCycle s.pins)

/-- After reset, a command placed on the port runs as the first one: its effect (R82, R92, R97, R113) on the reset
registers, and the synchroniser (R136: the block can accept any command in cycle 0). -/
def Obligations.FirstCommandAfterResetRuns : Prop :=
  ∀ i : Instr, i.wellFormed = true → ∃ t u,
    exec i State.reset = .next t
    ∧ step (State.reset.withFetchWord 16 (encode i).toNat) = .next u
    ∧ u.toBlock = latchEcho State.reset.pins.echoPin t.toBlock

/-- R116: the step is deterministic, and `cmd_valid`, `cmd`, `echo_pin` (with `rst`) are its only inputs: the
registers of the next cycle depend on nothing else in the state. -/
def Obligations.NextRegistersDependOnRegistersAndPinsOnly : Prop :=
  ∀ s s' : State, s.toBlock = s'.toBlock → s.pins = s'.pins →
    ∃ t t', step s = .next t ∧ step s' = .next t' ∧ t.toBlock = t'.toBlock

/-! ### What each command does, and what it leaves -/

/-- NOP completes in every state and writes nothing (R113). -/
def Obligations.NopCompletesAndWritesNothing : Prop :=
  ∀ s : State, exec .nop s = .next s

/-- TXB completes in every state: the five TX registers of R82, and no other register and no input changes. -/
def Obligations.TxbCompletesAndStartsTheFrame : Prop :=
  ∀ (imm8 : Byte) (s : State), exec (.txb imm8) s =
    .next { s with txData := imm8, txAct := true, txIdx := 0, txCnt := 0, txOut := false }

/-- TRIG completes in every state: trig_out and TRG_CNT = T − 1 (R92), and nothing else changes. -/
def Obligations.TrigCompletesAndStartsThePulse : Prop :=
  ∀ s : State, ∃ t, exec .trig s = .next t ∧ t.trigOut = true
    ∧ t.trgCnt.toNat = params.trigCycles - 1
    ∧ t = { s with trigOut := t.trigOut, trgCnt := t.trgCnt }

/-- MEAS completes in every state: phase RISE, status RUN, budget M, result and overflow count cleared (R97), and
nothing else changes: trig_out in particular (conflict C1). -/
def Obligations.MeasCompletesAndStartsTheMeasurement : Prop :=
  ∀ s : State, ∃ t, exec .meas s = .next t ∧ t.ptPhase = .rise ∧ t.ptStat = .run
    ∧ t.ta.toNat = params.riseBudget ∧ t.dur = 0 ∧ t.ovf = 0
    ∧ t = { s with ptPhase := t.ptPhase, ptStat := t.ptStat, ta := t.ta, dur := t.dur, ovf := t.ovf }

/-- R113: the word 0x0000 is NOP; offered without a reset it is accepted in any state, and the next cycle is
exactly as it would have been with `cmd_valid` = 0. -/
def Obligations.OfferedNopIsLikeNoCommand : Prop :=
  ∀ (s : State) (p : Pins), p.cmd = 0x0000#16 →
    (p.rst = false → p.cmdValid = true → accepted params p s.toBlock = some (.legal .nop))
    ∧ step (s.withPins p) = step (s.withPins { p with cmdValid := false })

/-- R114: a word that matches no row of the opcode map (R75) is accepted in any state and has one effect, ERR <- 1;
everything else is as it would have been with no command offered. During a reset it is not accepted and sets
nothing. -/
def Obligations.IllegalWordOnlySetsErr : Prop :=
  ∀ (s : State) (p : Pins), (∀ r ∈ opcodeRows, r.covers p.cmd = false) → p.cmdValid = true →
    (p.rst = false →
      (∃ why, accepted params p s.toBlock = some (.illegal why))
      ∧ ∃ t, step (s.withPins { p with cmdValid := false }) = .next t
          ∧ step (s.withPins p) = .next { t with err := true })
    ∧ (p.rst = true →
      accepted params p s.toBlock = none ∧ ∃ t, step (s.withPins p) = .next t ∧ t.err = false)

/-! ### The command port -/

/-- R111: when each kind of word is ready. -/
def Obligations.ReadyFollowsTheTableOfR111 : Prop :=
  ∀ (c : Parameters) (b : Block c.counterWidth c.syncStages),
    ready c (.legal .nop) b = true
    ∧ (∀ why, ready c (.illegal why) b = true)
    ∧ (∀ d, ready c (.legal (.txb d)) b = true ↔ busy b = false ∨ txLast c b = true)
    ∧ (ready c (.legal .trig) b = true ↔ busy b = false)
    ∧ (ready c (.legal .meas) b = true ↔ busy b = false)

/-- R110: `cmd_ready`, acceptance, and that a word which is not accepted has no effect at all. -/
def Obligations.OnlyAcceptedWordsHaveAnEffect : Prop :=
  ∀ (s : State) (p : Pins),
    (cmdReady params p s.toBlock = true ↔ p.rst = false ∧ ready params (decode p.cmd) s.toBlock = true)
    ∧ (∀ k, accepted params p s.toBlock = some k ↔
        p.rst = false ∧ p.cmdValid = true ∧ decode p.cmd = k ∧ ready params k s.toBlock = true)
    ∧ (accepted params p s.toBlock = none → ∀ w : Word,
        step (s.withPins p) = step (s.withPins { p with cmdValid := false, cmd := w }))

/-- R47, with R44 and R46 for BUSY and TX_LAST and the codes of R48: each bit of the STATUS word, and its value
after reset. -/
def Obligations.StatusWordHasTheFieldsOfR47 : Prop :=
  ∀ (c : Parameters) (b : Block c.counterWidth c.syncStages),
    ((status c b).getLsbD 0 = true ↔ b.txAct = true ∨ b.trigOut = true ∨ b.ptPhase ≠ .idle)
    ∧ (status c b).getLsbD 1 = b.txAct
    ∧ (status c b).getLsbD 2 = b.trigOut
    ∧ (status c b).extractLsb' 3 2
        = (match b.ptStat with | .none => 0#2 | .run => 1#2 | .ok => 2#2 | .tmo => 3#2)
    ∧ (status c b).getLsbD 5 = b.err
    ∧ ((status c b).getLsbD 6 = true ↔
        (b.txAct = false ∧ b.trigOut = false ∧ b.ptPhase = .idle)
        ∨ (b.txAct = true ∧ b.txIdx = 9 ∧ b.txCnt.toNat = c.bitCycles - 1))
    ∧ (∀ i, 7 ≤ i → (status c b).getLsbD i = false)
    ∧ status c (resetBlock : Block c.counterWidth c.syncStages) = 0x0040#16

/-- R40: an accepted illegal word sets ERR, and only reset clears it. -/
def Obligations.ErrIsSetByIllegalWordsAndClearedByResetOnly : Prop :=
  ∀ (c : Parameters) (p : Pins) (b : Block c.counterWidth c.syncStages),
    (cycle c p b).err = true ↔
      p.rst = false ∧ (b.err = true ∨ ∃ why, accepted c p b = some (.illegal why))

/-! ### The transmitter -/

/-- R80: the ten levels of a frame. -/
def Obligations.FrameLevelsAreStartDataStop : Prop :=
  ∀ data : Byte, frameLevel data 0 = false
    ∧ (∀ i : Fin 8, frameLevel data ⟨i.val + 1, by omega⟩ = data.getLsbD i.val)
    ∧ frameLevel data 9 = true

/-- R83: the TX registers after any cycle without a reset: an accepted TXB's writes replace the engine's; else the
engine steps. -/
def Obligations.TxEngineStepsThroughTheFrame : Prop :=
  ∀ (c : Parameters) (p : Pins) (b : Block c.counterWidth c.syncStages), p.rst = false →
    (∀ d, accepted c p b = some (.legal (.txb d)) → txRegisters (cycle c p b) = (false, true, 0, 0, d))
    ∧ ((∀ d, accepted c p b ≠ some (.legal (.txb d))) →
    (b.txAct = false → txRegisters (cycle c p b) = txRegisters b)
    ∧ (b.txAct = true → b.txCnt.toNat ≠ c.bitCycles - 1 →
        txRegisters (cycle c p b) = (b.txOut, true, b.txIdx, b.txCnt + 1, b.txData))
    ∧ (b.txAct = true → b.txCnt.toNat = c.bitCycles - 1 → b.txIdx = 9 →
        txRegisters (cycle c p b) = (true, false, 0, 0, b.txData))
    ∧ (b.txAct = true → b.txCnt.toNat = c.bitCycles - 1 → b.txIdx ≠ 9 →
        txRegisters (cycle c p b)
          = (frameLevel b.txData (b.txIdx + 1), true, b.txIdx + 1, 0, b.txData)))

/-- R84: an accepted TXB holds each level of its frame for exactly B cycles, whatever the host and the echo do
short of a reset; TX_ACT = BUSY = 1 in exactly those 10 × B cycles, and TX_LAST in the last of them only. -/
def Obligations.FrameHoldsEachLevelForBCycles : Prop :=
  ∀ (c : Parameters), c.Legal → ∀ (b : Block c.counterWidth c.syncStages) (p q : Pins) (data : Byte)
    (ps : List Pins), oneOperation b → accepted c p b = some (.legal (.txb data)) →
    noReset ps → q.rst = false → ps.length + 1 = 10 * c.bitCycles →
    (∀ (i : Fin 10) (j : Nat), j < c.bitCycles →
      let t := runCycles c (ps.take (i.val * c.bitCycles + j)) (cycle c p b)
      t.txOut = frameLevel data i ∧ t.txAct = true ∧ busy t = true
        ∧ (txLast c t = true ↔ i = 9 ∧ j = c.bitCycles - 1))
    ∧ (let last := runCycles c ps (cycle c p b)
       let t := cycle c q last
       busy t = t.txAct ∧ (t.txAct = true ↔ ∃ d, accepted c q last = some (.legal (.txb d))))

/-- R87: a host that keeps offering the next byte of a string gets its frames on the line with no gap: byte j's
level i fills the B cycles from cycle a + 1 + 10·B·j + i·B. -/
def Obligations.StringFramesFollowWithoutGap : Prop :=
  ∀ (c : Parameters), c.Legal → ∀ (b : Block c.counterWidth c.syncStages) (p : Pins) (first : Byte)
    (rest : List Byte) (ps : List Pins), accepted c p b = some (.legal (.txb first)) → noReset ps →
    ps.length + 1 = 10 * c.bitCycles * (rest.length + 1) →
    (∀ (m : Nat) (q : Pins) (next : Byte), ps[m]? = some q → rest[m / (10 * c.bitCycles)]? = some next →
      q.cmdValid = true ∧ q.cmd = 0x1000#16 ||| next.setWidth 16) →
    ∀ (j : Nat) (data : Byte), (first :: rest)[j]? = some data →
      ∀ (i : Fin 10) (r : Nat), r < c.bitCycles →
        (runCycles c (ps.take (10 * c.bitCycles * j + i.val * c.bitCycles + r)) (cycle c p b)).txOut
          = frameLevel data i

/-- R81 and R86: while no frame is being sent and no TXB is accepted, the line stays high. -/
def Obligations.IdleLineStaysHigh : Prop :=
  ∀ (c : Parameters) (b : Block c.counterWidth c.syncStages) (ps : List Pins),
    b.txAct = false → b.txOut = true →
    (∀ (m : Nat) (q : Pins) (d : Byte), ps[m]? = some q →
      accepted c q (runCycles c (ps.take m) b) ≠ some (.legal (.txb d))) →
    (runCycles c ps b).txAct = false ∧ (runCycles c ps b).txOut = true

/-- R15 and R85: a TXB accepted in the last cycle of a frame overrides the end of that frame. -/
def Obligations.TxbInTheLastCycleStartsTheNextFrame : Prop :=
  ∀ (c : Parameters) (b : Block c.counterWidth c.syncStages) (p : Pins) (data : Byte),
    p.rst = false → p.cmdValid = true → decode p.cmd = .legal (.txb data) → txLast c b = true →
    txRegisters (cycle c p b) = (false, true, 0, 0, data)

/-- R90: the TX engine writes TX registers only and the other engines write none; and the TX registers of the next
cycle depend on TX registers, the host's inputs and BUSY alone, as the PT registers and SYNC do on theirs. -/
def Obligations.TransmitterAndPulseTimerDoNotInterfere : Prop :=
  ∀ (c : Parameters) (b b' : Block c.counterWidth c.syncStages) (p p' : Pins) (e : Bool),
    (trigRegisters (txStep c b) = trigRegisters b ∧ ptRegisters (txStep c b) = ptRegisters b
      ∧ (txStep c b).sync = b.sync ∧ (txStep c b).err = b.err ∧ (txStep c b).txData = b.txData)
    ∧ (txRegisters (trigStep b) = txRegisters b ∧ txRegisters (ptStep c e b) = txRegisters b)
    ∧ (txRegisters b = txRegisters b' → busy b = busy b' → p.rst = p'.rst →
        p.cmdValid = p'.cmdValid → p.cmd = p'.cmd →
        txRegisters (cycle c p b) = txRegisters (cycle c p' b'))
    ∧ (ptRegisters b = ptRegisters b' → b.sync = b'.sync → busy b = busy b' →
        ptRegisters (cycle c p b) = ptRegisters (cycle c p b')
          ∧ (cycle c p b).sync = (cycle c p b').sync)

/-! ### The trigger -/

/-- R93: after an accepted TRIG, trig_out = 1 in exactly T cycles; DUR and PT_STAT stay as they were. -/
def Obligations.TriggerPulseLastsTCycles : Prop :=
  ∀ (c : Parameters), c.Legal → ∀ (b : Block c.counterWidth c.syncStages) (p : Pins) (ps : List Pins),
    accepted c p b = some (.legal .trig) → noReset ps → ps.length = c.trigCycles →
    (∀ m, m < c.trigCycles → (runCycles c (ps.take m) (cycle c p b)).trigOut = true)
    ∧ (runCycles c ps (cycle c p b)).trigOut = false
    ∧ (runCycles c ps (cycle c p b)).dur = b.dur
    ∧ (runCycles c ps (cycle c p b)).ptStat = b.ptStat

/-- R94: with MEAS offered from the cycle after TRIG is accepted, it is held through the pulse and accepted T + 1
cycles after TRIG. -/
def Obligations.PingMeasuresRightAfterThePulse : Prop :=
  ∀ (c : Parameters), c.Legal → ∀ (b : Block c.counterWidth c.syncStages) (p : Pins) (ps : List Pins),
    accepted c p b = some (.legal .trig) → noReset ps → ps.length = c.trigCycles + 1 →
    (∀ q ∈ ps, q.cmdValid = true ∧ q.cmd = 0x3000#16) →
    (∀ (m : Nat) (q : Pins), ps[m]? = some q →
      accepted c q (runCycles c (ps.take m) (cycle c p b))
        = if m < c.trigCycles then none else some (.legal .meas))
    ∧ (runCycles c ps (cycle c p b)).ptPhase = .rise
    ∧ (runCycles c ps (cycle c p b)).trigOut = false

/-! ### The pulse timer -/

/-- R99: the Phase A step, in any cycle without a reset, whatever the host offers: the rise, the timeout, or the
decrement, and every other PT register as it was. -/
def Obligations.PhaseAStepTestsThenDecrements : Prop :=
  ∀ (c : Parameters), c.Legal → ∀ (p : Pins) (b : Block c.counterWidth c.syncStages), p.rst = false →
    b.ptPhase = .rise →
    (echoSample b.sync p.echoPin = true →
      (cycle c p b).tb.toNat = c.fallBudget
      ∧ ptRegisters (cycle c p b)
          = (.fall, b.ptStat, b.ta, (cycle c p b).tb, 0, 0, false, 0, b.dur))
    ∧ (echoSample b.sync p.echoPin = false → b.ta = 1 →
      ptRegisters (cycle c p b) = (.idle, .tmo, 0, b.tb, b.cnt, b.psc, b.tov, b.ovf, 0))
    ∧ (echoSample b.sync p.echoPin = false → b.ta ≠ 1 →
      ptRegisters (cycle c p b) = (.rise, b.ptStat, b.ta - 1, b.tb, b.cnt, b.psc, b.tov, b.ovf, b.dur))

/-- R100: the Phase B step, in any cycle without a reset, whatever the host offers: one counting step (R95), then the
fall with DUR = (OVF' + TOV') × MOD + CNT' at 32 bits, the timeout, or the decrement. CNT', PSC' and TOV' then stand
until the next rise detection. -/
def Obligations.PhaseBStepCountsThenDecides : Prop :=
  ∀ (c : Parameters) (p : Pins) (b : Block c.counterWidth c.syncStages), p.rst = false →
    b.ptPhase = .fall →
    let t := cycle c p b
    let ticks := decide (b.psc.toNat = c.prescale - 1)
    t.psc = (if ticks then 0 else b.psc + 1)
    ∧ t.cnt.toNat = (if ticks then (b.cnt.toNat + 1) % 2 ^ c.counterWidth else b.cnt.toNat)
    ∧ t.ovf.toNat = (b.ovf.toNat + b.tov.toNat) % 2 ^ (32 - c.counterWidth)
    ∧ (t.tov = true ↔ ticks = true ∧ b.cnt.toNat = 2 ^ c.counterWidth - 1)
    ∧ t.ta = b.ta
    ∧ (echoSample b.sync p.echoPin = false →
        t.ptPhase = .idle ∧ t.ptStat = .ok ∧ t.tb = b.tb
        ∧ t.dur.toNat = ((t.ovf.toNat + t.tov.toNat) * 2 ^ c.counterWidth + t.cnt.toNat) % 2 ^ 32)
    ∧ (echoSample b.sync p.echoPin = true → b.tb = 1 →
        t.ptPhase = .idle ∧ t.ptStat = .tmo ∧ t.tb = 0 ∧ t.dur = 0)
    ∧ (echoSample b.sync p.echoPin = true → b.tb ≠ 1 →
        t.ptPhase = .fall ∧ t.ptStat = b.ptStat ∧ t.tb = b.tb - 1 ∧ t.dur = b.dur)
    ∧ (∀ qs : List Pins, noReset qs →
        (∀ m, m ≤ qs.length → (runCycles c (qs.take m) t).ptPhase ≠ .fall) →
        let u := runCycles c qs t
        u.cnt = t.cnt ∧ u.psc = t.psc ∧ u.tov = t.tov)

/-- R43, R70 and R95: outside Phase B, and but for the clear of a rise, the free-running counter holds still. -/
def Obligations.CounterStandsStillOutsidePhaseB : Prop :=
  ∀ (c : Parameters) (p : Pins) (b : Block c.counterWidth c.syncStages), p.rst = false →
    b.ptPhase ≠ .fall → (cycle c p b).ptPhase ≠ .fall →
    (cycle c p b).cnt = b.cnt ∧ (cycle c p b).psc = b.psc ∧ (cycle c p b).tov = b.tov

/-- R96: after n counting steps from a cleared counter, PSC and CNT hold the ticks and OVF + TOV every wrap, none
lost; and TOV = 1 lasts one step only. -/
def Obligations.CounterLosesNoWrap : Prop :=
  ∀ (c : Parameters), c.Legal → ∀ (b : Block c.counterWidth c.syncStages) (n : Nat), n < 2 ^ 32 →
    b.cnt = 0 → b.psc = 0 → b.tov = false → b.ovf = 0 →
    let t := (countingStep c)^[n] b
    t.psc.toNat = n % c.prescale
    ∧ t.cnt.toNat = n / c.prescale % 2 ^ c.counterWidth
    ∧ t.ovf.toNat + t.tov.toNat = n / c.prescale / 2 ^ c.counterWidth
    ∧ (t.tov = true → (countingStep c t).tov = false)

/-- R42: S cycles after any state, the echo sample of a cycle is the level `echo_pin` had S cycles earlier (with
S = 0, the pin's level in that same cycle). -/
def Obligations.EchoSampleIsThePinSCyclesEarlier : Prop :=
  ∀ (c : Parameters) (b : Block c.counterWidth c.syncStages) (ps : List Pins) (q : Pins),
    noReset ps → c.syncStages ≤ ps.length →
    ((ps ++ [q])[ps.length - c.syncStages]?).map (·.echoPin)
      = some (echoSample (runCycles c ps b).sync q.echoPin)

/-- R102, case 1: when the M samples after an accepted MEAS are all 0, the step of cycle a + M ends it with TMO and
DUR = 0; until then it runs. -/
def Obligations.PhaseATimesOutAfterMSamples : Prop :=
  ∀ (c : Parameters), c.Legal → ∀ (b : Block c.counterWidth c.syncStages) (p : Pins) (ps : List Pins),
    accepted c p b = some (.legal .meas) → noReset ps →
    echoSamples (cycle c p b).sync ps = List.replicate c.riseBudget false →
    (∀ m, m < ps.length → let t := runCycles c (ps.take m) (cycle c p b)
      busy t = true ∧ t.ptStat = .run ∧ t.dur = 0)
    ∧ (let t := runCycles c ps (cycle c p b)
       busy t = false ∧ t.ptStat = .tmo ∧ t.dur = 0)

/-- R102, case 2: a pulse of W ≤ N samples whose first is sample k ≤ M is measured: the step of cycle a + k + W ends
it with OK and DUR = floor(W / P); until then it runs (R103). k = 1 is the level-sensitive case of R104. -/
def Obligations.PulseIsMeasuredAsFloorOfWidthOverP : Prop :=
  ∀ (c : Parameters), c.Legal → ∀ (b : Block c.counterWidth c.syncStages) (p : Pins) (ps : List Pins)
    (k W : Nat), accepted c p b = some (.legal .meas) → noReset ps →
    1 ≤ k → k ≤ c.riseBudget → 1 ≤ W → W ≤ c.fallBudget →
    echoSamples (cycle c p b).sync ps
      = List.replicate (k - 1) false ++ List.replicate W true ++ [false] →
    (∀ m, m < ps.length → let t := runCycles c (ps.take m) (cycle c p b)
      busy t = true ∧ t.ptStat = .run ∧ t.dur = 0)
    ∧ (let t := runCycles c ps (cycle c p b)
       busy t = false ∧ t.ptStat = .ok ∧ t.dur.toNat = W / c.prescale)

/-- R102, case 3: a pulse of more than N samples whose first is sample k ≤ M times out: the step of cycle a + k + N
ends it with TMO and DUR = 0; until then it runs (R103, R105). -/
def Obligations.PhaseBTimesOutAfterNSamples : Prop :=
  ∀ (c : Parameters), c.Legal → ∀ (b : Block c.counterWidth c.syncStages) (p : Pins) (ps : List Pins)
    (k : Nat), accepted c p b = some (.legal .meas) → noReset ps →
    1 ≤ k → k ≤ c.riseBudget →
    echoSamples (cycle c p b).sync ps
      = List.replicate (k - 1) false ++ List.replicate (c.fallBudget + 1) true →
    (∀ m, m < ps.length → let t := runCycles c (ps.take m) (cycle c p b)
      busy t = true ∧ t.ptStat = .run ∧ t.dur = 0)
    ∧ (let t := runCycles c ps (cycle c p b)
       busy t = false ∧ t.ptStat = .tmo ∧ t.dur = 0)

/-- R124 (decision D7): an edge seen in the last budgeted sample of either phase wins over the timeout. -/
def Obligations.EdgeInTheLastSampleWinsOverTheTimeout : Prop :=
  ∀ (c : Parameters) (b : Block c.counterWidth c.syncStages),
    (b.ptPhase = .rise → b.ta = 1 →
      (ptStep c true b).ptPhase = .fall ∧ (ptStep c true b).ptStat = b.ptStat)
    ∧ (b.ptPhase = .fall → b.tb = 1 →
      (ptStep c false b).ptPhase = .idle ∧ (ptStep c false b).ptStat = .ok)

/-- R39, R63 and R107: without a reset, DUR changes only where a MEAS is accepted or a measurement ends; and in a
cycle that begins with no measurement in progress and accepts no MEAS, PT_STAT stays too. -/
def Obligations.DurationStaysBetweenMeasurements : Prop :=
  ∀ (c : Parameters) (p : Pins) (b : Block c.counterWidth c.syncStages), p.rst = false →
    accepted c p b ≠ some (.legal .meas) →
    (b.ptPhase = .idle ∨ (cycle c p b).ptPhase ≠ .idle → (cycle c p b).dur = b.dur)
    ∧ (b.ptPhase = .idle → (cycle c p b).ptStat = b.ptStat ∧ (cycle c p b).ptPhase = .idle)

/-! ### Invariants and liveness -/

/-- R53 at reset. -/
def Obligations.ResetStateMeetsTheInvariants : Prop := State.reset.Inv

/-- R53: every step of the machine keeps the invariants I-1 to I-7. I-3 counts the FALL steps as N − TB, which is the
model's reading (log entry 5). -/
def Obligations.EveryStepKeepsTheInvariants : Prop :=
  ∀ s t : State, s.Inv → step s = .next t → t.Inv

/-- R53 for every legal build: the invariants hold in every cycle reachable from the reset state under any
inputs. I-3 as in log entry 5. -/
def Obligations.InvariantsHoldInEveryBuildUnderAnyInputs : Prop :=
  ∀ (c : Parameters), c.Legal → ∀ ps : List Pins,
    BlockInv c (runCycles c ps (resetBlock : Block c.counterWidth c.syncStages))

/-- R53 as a step of every legal build: reset meets the invariants, and the cycle function keeps them under any
inputs. I-3 as in log entry 5. -/
def Obligations.EveryCycleOfEveryBuildKeepsTheInvariants : Prop :=
  ∀ (c : Parameters), c.Legal →
    BlockInv c (resetBlock : Block c.counterWidth c.syncStages)
    ∧ ∀ (p : Pins) (b : Block c.counterWidth c.syncStages), BlockInv c b → BlockInv c (cycle c p b)

/-- R152: if the host stops issuing commands, BUSY = 0 within the largest of 10 × B, T and M + N cycles, whatever
`echo_pin` does. -/
def Obligations.EveryOperationEndsWithinTheBound : Prop :=
  ∀ (c : Parameters), c.Legal → ∀ (b : Block c.counterWidth c.syncStages) (ps : List Pins),
    BlockInv c b → noReset ps → (∀ q ∈ ps, q.cmdValid = false) → busyBound c ≤ ps.length →
    busy (runCycles c ps b) = false

/-- R18: the run of every finite host program comes to its end, whatever the echo does: one bound of waiting and one
cycle of acceptance for each word, and one bound more. The host is the model's choice (DESIGN CHOICE, log entry 15):
it holds each word until it is accepted, offers the next at once, and drives no reset. -/
def Obligations.EveryHostProgramComesToItsEnd : Prop :=
  ∀ (c : Parameters), c.Legal → ∀ (b : Block c.counterWidth c.syncStages) (words : List Word)
    (echo : List Bool), BlockInv c b → (words.length + 1) * (busyBound c + 1) ≤ echo.length →
    (hostRun c echo { words := words, block := b }).over = true

/-! ### Configuration and assembler -/

/-- R9 and R7: an illegal configuration is refused, and a legal one with CW = 8 and S = 2 is built as it stands.
Two clauses are the model's choice: that only CW = 8 and S = 2 are built (DESIGN CHOICE, log entry 9), and that the
refusal names the parameters outside their ranges, all of them and no other (DESIGN CHOICE, log entry 16). -/
def Obligations.IllegalConfigurationsAreRefused : Prop :=
  ∀ p : Parameters,
    (¬p.Legal → ∃ which, which ≠ [] ∧ buildFrom p = .error (.illegal which)
      ∧ ∀ x, x ∈ which ↔
          match x with
          | .clkHz => p.clkHz = 0
          | .bitCycles => p.bitCycles < 1 ∨ 65536 < p.bitCycles
          | .trigCycles => p.trigCycles < 1 ∨ 65536 < p.trigCycles
          | .prescale => p.prescale < 1 ∨ 65536 < p.prescale
          | .counterWidth => p.counterWidth < 1 ∨ 16 < p.counterWidth
          | .riseBudget => p.riseBudget < 1 ∨ 2 ^ 32 - 1 < p.riseBudget
          | .fallBudget => p.fallBudget < 1 ∨ 2 ^ 32 - 1 < p.fallBudget
          | .syncStages => 3 < p.syncStages)
    ∧ (p.Legal → p.counterWidth = 8 → p.syncStages = 2 → ∃ hw, buildFrom p = .ok hw ∧ hw.params = p)
    ∧ (p.riseBudget = 0 ∨ p.fallBudget = 0 → ¬p.Legal)

/-- R78: TXS is one TXB per character, in order, and nothing for the empty string; PING is TRIG then MEAS. -/
def Obligations.PseudoCommandsExpandInOrder : Prop :=
  (∀ text : List Byte, ∃ ws, assembleStmt (.txs text) = .ok ws
      ∧ ws.map decode = text.map (fun d => Decoded.legal (.txb d)))
  ∧ ∃ ws, assembleStmt .ping = .ok ws ∧ ws.map decode = [.legal .trig, .legal .meas]

/-- R77: a statement is assembled exactly when its operand is in range, and `.word` is the only way to write an
illegal word. -/
def Obligations.AssemblerRejectsWhatIsOutOfRange : Prop :=
  ∀ s : Stmt,
    ((∃ ws, assembleStmt s = .ok ws) ↔ s.wellFormed = true)
    ∧ (∀ (ws : List Word) (w : Word) (why : IllegalWord), assembleStmt s = .ok ws → w ∈ ws →
        decode w = .illegal why → ∃ n, s = .word n)
end

