-- ==== Sys2Proof/Laws/Config.lean ====
section
/-! SUPPORT. The ranges of rule R7 by name, and what building a block refuses (rule R9). -/

namespace Sys2Proof.Config

theorem Parameters.Legal.bitCycles {p : Parameters} (h : p.Legal) :
    1 ≤ p.bitCycles ∧ p.bitCycles ≤ 65536 := h.2.1

theorem Parameters.Legal.trigCycles {p : Parameters} (h : p.Legal) :
    1 ≤ p.trigCycles ∧ p.trigCycles ≤ 65536 := h.2.2.1

theorem Parameters.Legal.prescale {p : Parameters} (h : p.Legal) :
    1 ≤ p.prescale ∧ p.prescale ≤ 65536 := h.2.2.2.1

theorem Parameters.Legal.counterWidth {p : Parameters} (h : p.Legal) :
    1 ≤ p.counterWidth ∧ p.counterWidth ≤ 16 := h.2.2.2.2.1

theorem Parameters.Legal.riseBudget {p : Parameters} (h : p.Legal) :
    1 ≤ p.riseBudget ∧ p.riseBudget ≤ 2 ^ 32 - 1 := h.2.2.2.2.2.1

theorem Parameters.Legal.fallBudget {p : Parameters} (h : p.Legal) :
    1 ≤ p.fallBudget ∧ p.fallBudget ≤ 2 ^ 32 - 1 := h.2.2.2.2.2.2.1

theorem Parameters.Legal.syncStages {p : Parameters} (h : p.Legal) : p.syncStages ≤ 3 :=
  h.2.2.2.2.2.2.2

/-- This hardware's parameters are legal (R7). -/
theorem params_legal : params.Legal := build.legal

/-- This hardware's counter has 8 bits (R7). -/
theorem params_counterWidth : params.counterWidth = 8 := build.width

/-- This hardware's synchroniser has 2 stages (R7). -/
theorem params_syncStages : params.syncStages = 2 := build.stages

end Sys2Proof.Config
end

