-- ==== Sys2Proof/Laws/State.lean ====
section
/-! SUPPORT. One lemma per field per update of the registers, and per field of the machine's own updates, so that no
later proof unfolds a record update. -/

namespace Sys2Proof.Machine

open Sys2Proof.Config

variable {cw stages : Nat}

/-! ### `startFrame` -/

@[simp] theorem startFrame_txOut (data : Byte) (b : Block cw stages) :
    (startFrame data b).txOut = false := rfl
@[simp] theorem startFrame_txAct (data : Byte) (b : Block cw stages) :
    (startFrame data b).txAct = true := rfl
@[simp] theorem startFrame_txIdx (data : Byte) (b : Block cw stages) :
    (startFrame data b).txIdx = 0 := rfl
@[simp] theorem startFrame_txCnt (data : Byte) (b : Block cw stages) :
    (startFrame data b).txCnt = 0 := rfl
@[simp] theorem startFrame_txData (data : Byte) (b : Block cw stages) :
    (startFrame data b).txData = data := rfl
@[simp] theorem startFrame_trigOut (data : Byte) (b : Block cw stages) :
    (startFrame data b).trigOut = b.trigOut := rfl
@[simp] theorem startFrame_trgCnt (data : Byte) (b : Block cw stages) :
    (startFrame data b).trgCnt = b.trgCnt := rfl
@[simp] theorem startFrame_ptPhase (data : Byte) (b : Block cw stages) :
    (startFrame data b).ptPhase = b.ptPhase := rfl
@[simp] theorem startFrame_ptStat (data : Byte) (b : Block cw stages) :
    (startFrame data b).ptStat = b.ptStat := rfl
@[simp] theorem startFrame_ta (data : Byte) (b : Block cw stages) :
    (startFrame data b).ta = b.ta := rfl
@[simp] theorem startFrame_tb (data : Byte) (b : Block cw stages) :
    (startFrame data b).tb = b.tb := rfl
@[simp] theorem startFrame_cnt (data : Byte) (b : Block cw stages) :
    (startFrame data b).cnt = b.cnt := rfl
@[simp] theorem startFrame_psc (data : Byte) (b : Block cw stages) :
    (startFrame data b).psc = b.psc := rfl
@[simp] theorem startFrame_tov (data : Byte) (b : Block cw stages) :
    (startFrame data b).tov = b.tov := rfl
@[simp] theorem startFrame_ovf (data : Byte) (b : Block cw stages) :
    (startFrame data b).ovf = b.ovf := rfl
@[simp] theorem startFrame_dur (data : Byte) (b : Block cw stages) :
    (startFrame data b).dur = b.dur := rfl
@[simp] theorem startFrame_err (data : Byte) (b : Block cw stages) :
    (startFrame data b).err = b.err := rfl
@[simp] theorem startFrame_sync (data : Byte) (b : Block cw stages) :
    (startFrame data b).sync = b.sync := rfl

/-! ### `startPulse` -/

@[simp] theorem startPulse_txOut (c : Parameters) (b : Block cw stages) :
    (startPulse c b).txOut = b.txOut := rfl
@[simp] theorem startPulse_txAct (c : Parameters) (b : Block cw stages) :
    (startPulse c b).txAct = b.txAct := rfl
@[simp] theorem startPulse_txIdx (c : Parameters) (b : Block cw stages) :
    (startPulse c b).txIdx = b.txIdx := rfl
@[simp] theorem startPulse_txCnt (c : Parameters) (b : Block cw stages) :
    (startPulse c b).txCnt = b.txCnt := rfl
@[simp] theorem startPulse_txData (c : Parameters) (b : Block cw stages) :
    (startPulse c b).txData = b.txData := rfl
@[simp] theorem startPulse_trigOut (c : Parameters) (b : Block cw stages) :
    (startPulse c b).trigOut = true := rfl
@[simp] theorem startPulse_trgCnt (c : Parameters) (b : Block cw stages) :
    (startPulse c b).trgCnt = BitVec.ofNat 16 (c.trigCycles - 1) := rfl
@[simp] theorem startPulse_ptPhase (c : Parameters) (b : Block cw stages) :
    (startPulse c b).ptPhase = b.ptPhase := rfl
@[simp] theorem startPulse_ptStat (c : Parameters) (b : Block cw stages) :
    (startPulse c b).ptStat = b.ptStat := rfl
@[simp] theorem startPulse_ta (c : Parameters) (b : Block cw stages) :
    (startPulse c b).ta = b.ta := rfl
@[simp] theorem startPulse_tb (c : Parameters) (b : Block cw stages) :
    (startPulse c b).tb = b.tb := rfl
@[simp] theorem startPulse_cnt (c : Parameters) (b : Block cw stages) :
    (startPulse c b).cnt = b.cnt := rfl
@[simp] theorem startPulse_psc (c : Parameters) (b : Block cw stages) :
    (startPulse c b).psc = b.psc := rfl
@[simp] theorem startPulse_tov (c : Parameters) (b : Block cw stages) :
    (startPulse c b).tov = b.tov := rfl
@[simp] theorem startPulse_ovf (c : Parameters) (b : Block cw stages) :
    (startPulse c b).ovf = b.ovf := rfl
@[simp] theorem startPulse_dur (c : Parameters) (b : Block cw stages) :
    (startPulse c b).dur = b.dur := rfl
@[simp] theorem startPulse_err (c : Parameters) (b : Block cw stages) :
    (startPulse c b).err = b.err := rfl
@[simp] theorem startPulse_sync (c : Parameters) (b : Block cw stages) :
    (startPulse c b).sync = b.sync := rfl

/-! ### `startMeasurement` -/

@[simp] theorem startMeasurement_txOut (c : Parameters) (b : Block cw stages) :
    (startMeasurement c b).txOut = b.txOut := rfl
@[simp] theorem startMeasurement_txAct (c : Parameters) (b : Block cw stages) :
    (startMeasurement c b).txAct = b.txAct := rfl
@[simp] theorem startMeasurement_txIdx (c : Parameters) (b : Block cw stages) :
    (startMeasurement c b).txIdx = b.txIdx := rfl
@[simp] theorem startMeasurement_txCnt (c : Parameters) (b : Block cw stages) :
    (startMeasurement c b).txCnt = b.txCnt := rfl
@[simp] theorem startMeasurement_txData (c : Parameters) (b : Block cw stages) :
    (startMeasurement c b).txData = b.txData := rfl
@[simp] theorem startMeasurement_trigOut (c : Parameters) (b : Block cw stages) :
    (startMeasurement c b).trigOut = b.trigOut := rfl
@[simp] theorem startMeasurement_trgCnt (c : Parameters) (b : Block cw stages) :
    (startMeasurement c b).trgCnt = b.trgCnt := rfl
@[simp] theorem startMeasurement_ptPhase (c : Parameters) (b : Block cw stages) :
    (startMeasurement c b).ptPhase = .rise := rfl
@[simp] theorem startMeasurement_ptStat (c : Parameters) (b : Block cw stages) :
    (startMeasurement c b).ptStat = .run := rfl
@[simp] theorem startMeasurement_ta (c : Parameters) (b : Block cw stages) :
    (startMeasurement c b).ta = BitVec.ofNat 32 c.riseBudget := rfl
@[simp] theorem startMeasurement_tb (c : Parameters) (b : Block cw stages) :
    (startMeasurement c b).tb = b.tb := rfl
@[simp] theorem startMeasurement_cnt (c : Parameters) (b : Block cw stages) :
    (startMeasurement c b).cnt = b.cnt := rfl
@[simp] theorem startMeasurement_psc (c : Parameters) (b : Block cw stages) :
    (startMeasurement c b).psc = b.psc := rfl
@[simp] theorem startMeasurement_tov (c : Parameters) (b : Block cw stages) :
    (startMeasurement c b).tov = b.tov := rfl
@[simp] theorem startMeasurement_ovf (c : Parameters) (b : Block cw stages) :
    (startMeasurement c b).ovf = 0 := rfl
@[simp] theorem startMeasurement_dur (c : Parameters) (b : Block cw stages) :
    (startMeasurement c b).dur = 0 := rfl
@[simp] theorem startMeasurement_err (c : Parameters) (b : Block cw stages) :
    (startMeasurement c b).err = b.err := rfl
@[simp] theorem startMeasurement_sync (c : Parameters) (b : Block cw stages) :
    (startMeasurement c b).sync = b.sync := rfl

/-! ### `latchEcho` -/

@[simp] theorem latchEcho_txOut (e : Bool) (b : Block cw stages) :
    (latchEcho e b).txOut = b.txOut := rfl
@[simp] theorem latchEcho_txAct (e : Bool) (b : Block cw stages) :
    (latchEcho e b).txAct = b.txAct := rfl
@[simp] theorem latchEcho_txIdx (e : Bool) (b : Block cw stages) :
    (latchEcho e b).txIdx = b.txIdx := rfl
@[simp] theorem latchEcho_txCnt (e : Bool) (b : Block cw stages) :
    (latchEcho e b).txCnt = b.txCnt := rfl
@[simp] theorem latchEcho_txData (e : Bool) (b : Block cw stages) :
    (latchEcho e b).txData = b.txData := rfl
@[simp] theorem latchEcho_trigOut (e : Bool) (b : Block cw stages) :
    (latchEcho e b).trigOut = b.trigOut := rfl
@[simp] theorem latchEcho_trgCnt (e : Bool) (b : Block cw stages) :
    (latchEcho e b).trgCnt = b.trgCnt := rfl
@[simp] theorem latchEcho_ptPhase (e : Bool) (b : Block cw stages) :
    (latchEcho e b).ptPhase = b.ptPhase := rfl
@[simp] theorem latchEcho_ptStat (e : Bool) (b : Block cw stages) :
    (latchEcho e b).ptStat = b.ptStat := rfl
@[simp] theorem latchEcho_ta (e : Bool) (b : Block cw stages) :
    (latchEcho e b).ta = b.ta := rfl
@[simp] theorem latchEcho_tb (e : Bool) (b : Block cw stages) :
    (latchEcho e b).tb = b.tb := rfl
@[simp] theorem latchEcho_cnt (e : Bool) (b : Block cw stages) :
    (latchEcho e b).cnt = b.cnt := rfl
@[simp] theorem latchEcho_psc (e : Bool) (b : Block cw stages) :
    (latchEcho e b).psc = b.psc := rfl
@[simp] theorem latchEcho_tov (e : Bool) (b : Block cw stages) :
    (latchEcho e b).tov = b.tov := rfl
@[simp] theorem latchEcho_ovf (e : Bool) (b : Block cw stages) :
    (latchEcho e b).ovf = b.ovf := rfl
@[simp] theorem latchEcho_dur (e : Bool) (b : Block cw stages) :
    (latchEcho e b).dur = b.dur := rfl
@[simp] theorem latchEcho_err (e : Bool) (b : Block cw stages) :
    (latchEcho e b).err = b.err := rfl
@[simp] theorem latchEcho_sync (e : Bool) (b : Block cw stages) :
    (latchEcho e b).sync = syncShift b.sync e := rfl

/-! ### `illegalEffect` -/

@[simp] theorem illegalEffect_txOut (b : Block cw stages) :
    (illegalEffect b).txOut = b.txOut := rfl
@[simp] theorem illegalEffect_txAct (b : Block cw stages) :
    (illegalEffect b).txAct = b.txAct := rfl
@[simp] theorem illegalEffect_txIdx (b : Block cw stages) :
    (illegalEffect b).txIdx = b.txIdx := rfl
@[simp] theorem illegalEffect_txCnt (b : Block cw stages) :
    (illegalEffect b).txCnt = b.txCnt := rfl
@[simp] theorem illegalEffect_txData (b : Block cw stages) :
    (illegalEffect b).txData = b.txData := rfl
@[simp] theorem illegalEffect_trigOut (b : Block cw stages) :
    (illegalEffect b).trigOut = b.trigOut := rfl
@[simp] theorem illegalEffect_trgCnt (b : Block cw stages) :
    (illegalEffect b).trgCnt = b.trgCnt := rfl
@[simp] theorem illegalEffect_ptPhase (b : Block cw stages) :
    (illegalEffect b).ptPhase = b.ptPhase := rfl
@[simp] theorem illegalEffect_ptStat (b : Block cw stages) :
    (illegalEffect b).ptStat = b.ptStat := rfl
@[simp] theorem illegalEffect_ta (b : Block cw stages) :
    (illegalEffect b).ta = b.ta := rfl
@[simp] theorem illegalEffect_tb (b : Block cw stages) :
    (illegalEffect b).tb = b.tb := rfl
@[simp] theorem illegalEffect_cnt (b : Block cw stages) :
    (illegalEffect b).cnt = b.cnt := rfl
@[simp] theorem illegalEffect_psc (b : Block cw stages) :
    (illegalEffect b).psc = b.psc := rfl
@[simp] theorem illegalEffect_tov (b : Block cw stages) :
    (illegalEffect b).tov = b.tov := rfl
@[simp] theorem illegalEffect_ovf (b : Block cw stages) :
    (illegalEffect b).ovf = b.ovf := rfl
@[simp] theorem illegalEffect_dur (b : Block cw stages) :
    (illegalEffect b).dur = b.dur := rfl
@[simp] theorem illegalEffect_err (b : Block cw stages) :
    (illegalEffect b).err = true := rfl
@[simp] theorem illegalEffect_sync (b : Block cw stages) :
    (illegalEffect b).sync = b.sync := rfl

/-! ### `raiseError` (timeout) -/

@[simp] theorem raiseError_timeout_txOut (b : Block cw stages) :
    (raiseError .measTimeout b).txOut = b.txOut := rfl
@[simp] theorem raiseError_timeout_txAct (b : Block cw stages) :
    (raiseError .measTimeout b).txAct = b.txAct := rfl
@[simp] theorem raiseError_timeout_txIdx (b : Block cw stages) :
    (raiseError .measTimeout b).txIdx = b.txIdx := rfl
@[simp] theorem raiseError_timeout_txCnt (b : Block cw stages) :
    (raiseError .measTimeout b).txCnt = b.txCnt := rfl
@[simp] theorem raiseError_timeout_txData (b : Block cw stages) :
    (raiseError .measTimeout b).txData = b.txData := rfl
@[simp] theorem raiseError_timeout_trigOut (b : Block cw stages) :
    (raiseError .measTimeout b).trigOut = b.trigOut := rfl
@[simp] theorem raiseError_timeout_trgCnt (b : Block cw stages) :
    (raiseError .measTimeout b).trgCnt = b.trgCnt := rfl
@[simp] theorem raiseError_timeout_ptPhase (b : Block cw stages) :
    (raiseError .measTimeout b).ptPhase = b.ptPhase := rfl
@[simp] theorem raiseError_timeout_ptStat (b : Block cw stages) :
    (raiseError .measTimeout b).ptStat = .tmo := rfl
@[simp] theorem raiseError_timeout_ta (b : Block cw stages) :
    (raiseError .measTimeout b).ta = b.ta := rfl
@[simp] theorem raiseError_timeout_tb (b : Block cw stages) :
    (raiseError .measTimeout b).tb = b.tb := rfl
@[simp] theorem raiseError_timeout_cnt (b : Block cw stages) :
    (raiseError .measTimeout b).cnt = b.cnt := rfl
@[simp] theorem raiseError_timeout_psc (b : Block cw stages) :
    (raiseError .measTimeout b).psc = b.psc := rfl
@[simp] theorem raiseError_timeout_tov (b : Block cw stages) :
    (raiseError .measTimeout b).tov = b.tov := rfl
@[simp] theorem raiseError_timeout_ovf (b : Block cw stages) :
    (raiseError .measTimeout b).ovf = b.ovf := rfl
@[simp] theorem raiseError_timeout_dur (b : Block cw stages) :
    (raiseError .measTimeout b).dur = 0 := rfl
@[simp] theorem raiseError_timeout_err (b : Block cw stages) :
    (raiseError .measTimeout b).err = b.err := rfl
@[simp] theorem raiseError_timeout_sync (b : Block cw stages) :
    (raiseError .measTimeout b).sync = b.sync := rfl

/-! ### `raiseError` (illegal) -/

@[simp] theorem raiseError_illegal_txOut (b : Block cw stages) :
    (raiseError .illegalCommand b).txOut = b.txOut := rfl
@[simp] theorem raiseError_illegal_txAct (b : Block cw stages) :
    (raiseError .illegalCommand b).txAct = b.txAct := rfl
@[simp] theorem raiseError_illegal_txIdx (b : Block cw stages) :
    (raiseError .illegalCommand b).txIdx = b.txIdx := rfl
@[simp] theorem raiseError_illegal_txCnt (b : Block cw stages) :
    (raiseError .illegalCommand b).txCnt = b.txCnt := rfl
@[simp] theorem raiseError_illegal_txData (b : Block cw stages) :
    (raiseError .illegalCommand b).txData = b.txData := rfl
@[simp] theorem raiseError_illegal_trigOut (b : Block cw stages) :
    (raiseError .illegalCommand b).trigOut = b.trigOut := rfl
@[simp] theorem raiseError_illegal_trgCnt (b : Block cw stages) :
    (raiseError .illegalCommand b).trgCnt = b.trgCnt := rfl
@[simp] theorem raiseError_illegal_ptPhase (b : Block cw stages) :
    (raiseError .illegalCommand b).ptPhase = b.ptPhase := rfl
@[simp] theorem raiseError_illegal_ptStat (b : Block cw stages) :
    (raiseError .illegalCommand b).ptStat = b.ptStat := rfl
@[simp] theorem raiseError_illegal_ta (b : Block cw stages) :
    (raiseError .illegalCommand b).ta = b.ta := rfl
@[simp] theorem raiseError_illegal_tb (b : Block cw stages) :
    (raiseError .illegalCommand b).tb = b.tb := rfl
@[simp] theorem raiseError_illegal_cnt (b : Block cw stages) :
    (raiseError .illegalCommand b).cnt = b.cnt := rfl
@[simp] theorem raiseError_illegal_psc (b : Block cw stages) :
    (raiseError .illegalCommand b).psc = b.psc := rfl
@[simp] theorem raiseError_illegal_tov (b : Block cw stages) :
    (raiseError .illegalCommand b).tov = b.tov := rfl
@[simp] theorem raiseError_illegal_ovf (b : Block cw stages) :
    (raiseError .illegalCommand b).ovf = b.ovf := rfl
@[simp] theorem raiseError_illegal_dur (b : Block cw stages) :
    (raiseError .illegalCommand b).dur = b.dur := rfl
@[simp] theorem raiseError_illegal_err (b : Block cw stages) :
    (raiseError .illegalCommand b).err = true := rfl
@[simp] theorem raiseError_illegal_sync (b : Block cw stages) :
    (raiseError .illegalCommand b).sync = b.sync := rfl

/-! ### `countingStep` -/

@[simp] theorem countingStep_txOut (c : Parameters) (b : Block cw stages) :
    (countingStep c b).txOut = b.txOut := rfl
@[simp] theorem countingStep_txAct (c : Parameters) (b : Block cw stages) :
    (countingStep c b).txAct = b.txAct := rfl
@[simp] theorem countingStep_txIdx (c : Parameters) (b : Block cw stages) :
    (countingStep c b).txIdx = b.txIdx := rfl
@[simp] theorem countingStep_txCnt (c : Parameters) (b : Block cw stages) :
    (countingStep c b).txCnt = b.txCnt := rfl
@[simp] theorem countingStep_txData (c : Parameters) (b : Block cw stages) :
    (countingStep c b).txData = b.txData := rfl
@[simp] theorem countingStep_trigOut (c : Parameters) (b : Block cw stages) :
    (countingStep c b).trigOut = b.trigOut := rfl
@[simp] theorem countingStep_trgCnt (c : Parameters) (b : Block cw stages) :
    (countingStep c b).trgCnt = b.trgCnt := rfl
@[simp] theorem countingStep_ptPhase (c : Parameters) (b : Block cw stages) :
    (countingStep c b).ptPhase = b.ptPhase := rfl
@[simp] theorem countingStep_ptStat (c : Parameters) (b : Block cw stages) :
    (countingStep c b).ptStat = b.ptStat := rfl
@[simp] theorem countingStep_ta (c : Parameters) (b : Block cw stages) :
    (countingStep c b).ta = b.ta := rfl
@[simp] theorem countingStep_tb (c : Parameters) (b : Block cw stages) :
    (countingStep c b).tb = b.tb := rfl
@[simp] theorem countingStep_cnt (c : Parameters) (b : Block cw stages) :
    (countingStep c b).cnt = if tick c b then b.cnt + 1 else b.cnt := rfl
@[simp] theorem countingStep_psc (c : Parameters) (b : Block cw stages) :
    (countingStep c b).psc = if tick c b then 0 else b.psc + 1 := rfl
@[simp] theorem countingStep_tov (c : Parameters) (b : Block cw stages) :
    (countingStep c b).tov = wrap c b := rfl
@[simp] theorem countingStep_ovf (c : Parameters) (b : Block cw stages) :
    (countingStep c b).ovf = b.ovf + BitVec.ofNat (32 - cw) b.tov.toNat := rfl
@[simp] theorem countingStep_dur (c : Parameters) (b : Block cw stages) :
    (countingStep c b).dur = b.dur := rfl
@[simp] theorem countingStep_err (c : Parameters) (b : Block cw stages) :
    (countingStep c b).err = b.err := rfl
@[simp] theorem countingStep_sync (c : Parameters) (b : Block cw stages) :
    (countingStep c b).sync = b.sync := rfl

/-! ### The reset state (R52) -/

@[simp] theorem resetBlock_txOut : (resetBlock : Block cw stages).txOut = true := rfl
@[simp] theorem resetBlock_txAct : (resetBlock : Block cw stages).txAct = false := rfl
@[simp] theorem resetBlock_txIdx : (resetBlock : Block cw stages).txIdx = 0 := rfl
@[simp] theorem resetBlock_txCnt : (resetBlock : Block cw stages).txCnt = 0 := rfl
@[simp] theorem resetBlock_txData : (resetBlock : Block cw stages).txData = 0 := rfl
@[simp] theorem resetBlock_trigOut : (resetBlock : Block cw stages).trigOut = false := rfl
@[simp] theorem resetBlock_trgCnt : (resetBlock : Block cw stages).trgCnt = 0 := rfl
@[simp] theorem resetBlock_ptPhase : (resetBlock : Block cw stages).ptPhase = .idle := rfl
@[simp] theorem resetBlock_ptStat : (resetBlock : Block cw stages).ptStat = .none := rfl
@[simp] theorem resetBlock_ta : (resetBlock : Block cw stages).ta = 0 := rfl
@[simp] theorem resetBlock_tb : (resetBlock : Block cw stages).tb = 0 := rfl
@[simp] theorem resetBlock_cnt : (resetBlock : Block cw stages).cnt = 0 := rfl
@[simp] theorem resetBlock_psc : (resetBlock : Block cw stages).psc = 0 := rfl
@[simp] theorem resetBlock_tov : (resetBlock : Block cw stages).tov = false := rfl
@[simp] theorem resetBlock_ovf : (resetBlock : Block cw stages).ovf = 0 := rfl
@[simp] theorem resetBlock_dur : (resetBlock : Block cw stages).dur = 0 := rfl
@[simp] theorem resetBlock_err : (resetBlock : Block cw stages).err = false := rfl
@[simp] theorem resetBlock_sync : (resetBlock : Block cw stages).sync = 0 := rfl

/-! ### Updates of the whole machine -/

@[simp] theorem withBlock_toBlock (s : State) (b : Block counterWidth syncStages) :
    (s.withBlock b).toBlock = b := rfl
@[simp] theorem withBlock_script (s : State) (b : Block counterWidth syncStages) :
    (s.withBlock b).script = s.script := rfl
@[simp] theorem withBlock_elapsed (s : State) (b : Block counterWidth syncStages) :
    (s.withBlock b).elapsed = s.elapsed := rfl
@[simp] theorem withBlock_pins (s : State) (b : Block counterWidth syncStages) :
    (s.withBlock b).pins = s.pins := rfl
@[simp] theorem withBlock_withBlock (s : State) (b b' : Block counterWidth syncStages) :
    (s.withBlock b).withBlock b' = s.withBlock b' := rfl
@[simp] theorem withBlock_self (s : State) : s.withBlock s.toBlock = s := rfl

@[simp] theorem withPins_toBlock (s : State) (p : Pins) : (s.withPins p).toBlock = s.toBlock := rfl
@[simp] theorem withPins_script (s : State) (p : Pins) :
    (s.withPins p).script = p :: s.script.tail := rfl
@[simp] theorem withPins_elapsed (s : State) (p : Pins) : (s.withPins p).elapsed = s.elapsed := rfl
@[simp] theorem withPins_pins (s : State) (p : Pins) : (s.withPins p).pins = p := rfl

@[simp] theorem nextCycle_toBlock (s : State) : s.nextCycle.toBlock = s.toBlock := rfl
@[simp] theorem nextCycle_script (s : State) : s.nextCycle.script = s.script.tail := rfl
@[simp] theorem nextCycle_elapsed (s : State) : s.nextCycle.elapsed = s.elapsed + 1 := rfl

@[simp] theorem endCycle_toBlock (s : State) (p : Pins) :
    (s.endCycle p).toBlock = latchEcho p.echoPin s.toBlock := rfl
@[simp] theorem endCycle_script (s : State) (p : Pins) : (s.endCycle p).script = s.script.tail := rfl
@[simp] theorem endCycle_elapsed (s : State) (p : Pins) : (s.endCycle p).elapsed = s.elapsed + 1 := rfl

@[simp] theorem offer_toBlock (s : State) (w : Word) : (s.offer w).toBlock = s.toBlock := rfl
@[simp] theorem offer_pins (s : State) (w : Word) :
    (s.offer w).pins = { s.pins with rst := false, cmdValid := true, cmd := w } := rfl

@[simp] theorem reset_toBlock : State.reset.toBlock = resetBlock := rfl
@[simp] theorem reset_script : State.reset.script = [] := rfl
@[simp] theorem reset_elapsed : State.reset.elapsed = 0 := rfl

end Sys2Proof.Machine
end

