-- ==== Sys2Proof/Laws/Ops.lean ====
section
/-! SUPPORT. What each shared operation can do, said once: the engines case by case, the registers each of them leaves
alone (rule R90), what acceptance means (R110), and the three forms of a cycle (R115). -/

namespace Sys2Proof.Machine

open Sys2Proof.Config

variable {cw stages : Nat}

/-- Everything the TX engine can do (R83). -/
theorem txStep_cases (c : Parameters) (b : Block cw stages) :
    (b.txAct = false ∧ txStep c b = b)
    ∨ (b.txAct = true ∧ b.txCnt.toNat = c.bitCycles - 1 ∧ b.txIdx = 9
        ∧ txStep c b = { b with txAct := false, txIdx := 0, txCnt := 0, txOut := true })
    ∨ (b.txAct = true ∧ b.txCnt.toNat = c.bitCycles - 1 ∧ b.txIdx ≠ 9
        ∧ txStep c b = { b with txIdx := b.txIdx + 1, txCnt := 0,
                                txOut := frameLevel b.txData (b.txIdx + 1) })
    ∨ (b.txAct = true ∧ b.txCnt.toNat ≠ c.bitCycles - 1
        ∧ txStep c b = { b with txCnt := b.txCnt + 1 }) := by
  by_cases h1 : b.txAct = true
  · by_cases h2 : b.txCnt.toNat = c.bitCycles - 1
    · by_cases h3 : b.txIdx = 9 <;> simp [txStep, h1, h2, h3]
    · simp [txStep, h1, h2]
  · simp [txStep, h1]

/-- Everything the trigger step can do (R93). -/
theorem trigStep_cases (b : Block cw stages) :
    (b.trigOut = false ∧ trigStep b = b)
    ∨ (b.trigOut = true ∧ b.trgCnt = 0 ∧ trigStep b = { b with trigOut := false })
    ∨ (b.trigOut = true ∧ b.trgCnt ≠ 0 ∧ trigStep b = { b with trgCnt := b.trgCnt - 1 }) := by
  by_cases h1 : b.trigOut = true
  · by_cases h2 : b.trgCnt = 0 <;> (simp [trigStep, h1, h2]; try exact em _)
  · simp [trigStep, h1]

/-- Everything the PT engine can do (R98 to R100). -/
theorem ptStep_cases (c : Parameters) (e : Bool) (b : Block cw stages) :
    (b.ptPhase = .idle ∧ ptStep c e b = b)
    ∨ (b.ptPhase = .rise ∧ e = true
        ∧ ptStep c e b = { b with ptPhase := .fall, cnt := 0, psc := 0, tov := false, ovf := 0,
                                  tb := BitVec.ofNat 32 c.fallBudget })
    ∨ (b.ptPhase = .rise ∧ e = false ∧ b.ta = 1
        ∧ ptStep c e b = { b with ta := 0, ptPhase := .idle, ptStat := .tmo, dur := 0 })
    ∨ (b.ptPhase = .rise ∧ e = false ∧ b.ta ≠ 1 ∧ ptStep c e b = { b with ta := b.ta - 1 })
    ∨ (b.ptPhase = .fall ∧ e = false
        ∧ ptStep c e b = { countingStep c b with dur := extendedCount (countingStep c b),
                                                 ptPhase := .idle, ptStat := .ok })
    ∨ (b.ptPhase = .fall ∧ e = true ∧ b.tb = 1
        ∧ ptStep c e b = { countingStep c b with tb := 0, ptPhase := .idle, ptStat := .tmo, dur := 0 })
    ∨ (b.ptPhase = .fall ∧ e = true ∧ b.tb ≠ 1
        ∧ ptStep c e b = { countingStep c b with tb := b.tb - 1 }) := by
  cases hp : b.ptPhase
  · simp [ptStep, hp]
  · cases e
    · by_cases h : b.ta = 1 <;> (simp [ptStep, hp, riseStep, raiseError, h]; try exact em _)
    · simp [ptStep, hp, riseStep]
  · cases e
    · simp [ptStep, hp, fallStep, fallOutcome]
    · by_cases h : b.tb = 1 <;> (simp [ptStep, hp, fallStep, fallOutcome, raiseError, h]; try exact em _)

/-! ### What each engine leaves alone (R90) -/

/-- The TX engine writes TX_ACT, TX_IDX, TX_CNT and tx_out only. -/
theorem txStep_writes (c : Parameters) (b : Block cw stages) :
    txStep c b = { b with txAct := (txStep c b).txAct, txIdx := (txStep c b).txIdx,
                          txCnt := (txStep c b).txCnt, txOut := (txStep c b).txOut } := by
  rcases txStep_cases c b with ⟨-, h⟩ | ⟨-, -, -, h⟩ | ⟨-, -, -, h⟩ | ⟨-, -, h⟩ <;> simp [h]

/-- The trigger step writes trig_out and TRG_CNT only. -/
theorem trigStep_writes (b : Block cw stages) :
    trigStep b = { b with trigOut := (trigStep b).trigOut, trgCnt := (trigStep b).trgCnt } := by
  rcases trigStep_cases b with ⟨-, h⟩ | ⟨-, -, h⟩ | ⟨-, -, h⟩ <;> simp [h]

/-- The PT engine writes PT registers only; SYNC is not among them. -/
theorem ptStep_writes (c : Parameters) (e : Bool) (b : Block cw stages) :
    ptStep c e b =
      { b with ptPhase := (ptStep c e b).ptPhase, ptStat := (ptStep c e b).ptStat,
               ta := (ptStep c e b).ta, tb := (ptStep c e b).tb, cnt := (ptStep c e b).cnt,
               psc := (ptStep c e b).psc, tov := (ptStep c e b).tov, ovf := (ptStep c e b).ovf,
               dur := (ptStep c e b).dur } := by
  rcases ptStep_cases c e b with ⟨-, h⟩ | ⟨-, -, h⟩ | ⟨-, -, -, h⟩ | ⟨-, -, -, h⟩ | ⟨-, -, h⟩
    | ⟨-, -, -, h⟩ | ⟨-, -, -, h⟩ <;> simp [h, countingStep]

@[simp] theorem txStep_txData (c : Parameters) (b : Block cw stages) :
    (txStep c b).txData = b.txData := by
  rw [txStep_writes]
@[simp] theorem txStep_trigOut (c : Parameters) (b : Block cw stages) :
    (txStep c b).trigOut = b.trigOut := by
  rw [txStep_writes]
@[simp] theorem txStep_trgCnt (c : Parameters) (b : Block cw stages) :
    (txStep c b).trgCnt = b.trgCnt := by
  rw [txStep_writes]
@[simp] theorem txStep_ptPhase (c : Parameters) (b : Block cw stages) :
    (txStep c b).ptPhase = b.ptPhase := by
  rw [txStep_writes]
@[simp] theorem txStep_ptStat (c : Parameters) (b : Block cw stages) :
    (txStep c b).ptStat = b.ptStat := by
  rw [txStep_writes]
@[simp] theorem txStep_ta (c : Parameters) (b : Block cw stages) :
    (txStep c b).ta = b.ta := by
  rw [txStep_writes]
@[simp] theorem txStep_tb (c : Parameters) (b : Block cw stages) :
    (txStep c b).tb = b.tb := by
  rw [txStep_writes]
@[simp] theorem txStep_cnt (c : Parameters) (b : Block cw stages) :
    (txStep c b).cnt = b.cnt := by
  rw [txStep_writes]
@[simp] theorem txStep_psc (c : Parameters) (b : Block cw stages) :
    (txStep c b).psc = b.psc := by
  rw [txStep_writes]
@[simp] theorem txStep_tov (c : Parameters) (b : Block cw stages) :
    (txStep c b).tov = b.tov := by
  rw [txStep_writes]
@[simp] theorem txStep_ovf (c : Parameters) (b : Block cw stages) :
    (txStep c b).ovf = b.ovf := by
  rw [txStep_writes]
@[simp] theorem txStep_dur (c : Parameters) (b : Block cw stages) :
    (txStep c b).dur = b.dur := by
  rw [txStep_writes]
@[simp] theorem txStep_err (c : Parameters) (b : Block cw stages) :
    (txStep c b).err = b.err := by
  rw [txStep_writes]
@[simp] theorem txStep_sync (c : Parameters) (b : Block cw stages) :
    (txStep c b).sync = b.sync := by
  rw [txStep_writes]
@[simp] theorem trigStep_txOut (b : Block cw stages) :
    (trigStep b).txOut = b.txOut := by
  rw [trigStep_writes]
@[simp] theorem trigStep_txAct (b : Block cw stages) :
    (trigStep b).txAct = b.txAct := by
  rw [trigStep_writes]
@[simp] theorem trigStep_txIdx (b : Block cw stages) :
    (trigStep b).txIdx = b.txIdx := by
  rw [trigStep_writes]
@[simp] theorem trigStep_txCnt (b : Block cw stages) :
    (trigStep b).txCnt = b.txCnt := by
  rw [trigStep_writes]
@[simp] theorem trigStep_txData (b : Block cw stages) :
    (trigStep b).txData = b.txData := by
  rw [trigStep_writes]
@[simp] theorem trigStep_ptPhase (b : Block cw stages) :
    (trigStep b).ptPhase = b.ptPhase := by
  rw [trigStep_writes]
@[simp] theorem trigStep_ptStat (b : Block cw stages) :
    (trigStep b).ptStat = b.ptStat := by
  rw [trigStep_writes]
@[simp] theorem trigStep_ta (b : Block cw stages) :
    (trigStep b).ta = b.ta := by
  rw [trigStep_writes]
@[simp] theorem trigStep_tb (b : Block cw stages) :
    (trigStep b).tb = b.tb := by
  rw [trigStep_writes]
@[simp] theorem trigStep_cnt (b : Block cw stages) :
    (trigStep b).cnt = b.cnt := by
  rw [trigStep_writes]
@[simp] theorem trigStep_psc (b : Block cw stages) :
    (trigStep b).psc = b.psc := by
  rw [trigStep_writes]
@[simp] theorem trigStep_tov (b : Block cw stages) :
    (trigStep b).tov = b.tov := by
  rw [trigStep_writes]
@[simp] theorem trigStep_ovf (b : Block cw stages) :
    (trigStep b).ovf = b.ovf := by
  rw [trigStep_writes]
@[simp] theorem trigStep_dur (b : Block cw stages) :
    (trigStep b).dur = b.dur := by
  rw [trigStep_writes]
@[simp] theorem trigStep_err (b : Block cw stages) :
    (trigStep b).err = b.err := by
  rw [trigStep_writes]
@[simp] theorem trigStep_sync (b : Block cw stages) :
    (trigStep b).sync = b.sync := by
  rw [trigStep_writes]
@[simp] theorem ptStep_txOut (c : Parameters) (e : Bool) (b : Block cw stages) :
    (ptStep c e b).txOut = b.txOut := by
  rw [ptStep_writes]
@[simp] theorem ptStep_txAct (c : Parameters) (e : Bool) (b : Block cw stages) :
    (ptStep c e b).txAct = b.txAct := by
  rw [ptStep_writes]
@[simp] theorem ptStep_txIdx (c : Parameters) (e : Bool) (b : Block cw stages) :
    (ptStep c e b).txIdx = b.txIdx := by
  rw [ptStep_writes]
@[simp] theorem ptStep_txCnt (c : Parameters) (e : Bool) (b : Block cw stages) :
    (ptStep c e b).txCnt = b.txCnt := by
  rw [ptStep_writes]
@[simp] theorem ptStep_txData (c : Parameters) (e : Bool) (b : Block cw stages) :
    (ptStep c e b).txData = b.txData := by
  rw [ptStep_writes]
@[simp] theorem ptStep_trigOut (c : Parameters) (e : Bool) (b : Block cw stages) :
    (ptStep c e b).trigOut = b.trigOut := by
  rw [ptStep_writes]
@[simp] theorem ptStep_trgCnt (c : Parameters) (e : Bool) (b : Block cw stages) :
    (ptStep c e b).trgCnt = b.trgCnt := by
  rw [ptStep_writes]
@[simp] theorem ptStep_err (c : Parameters) (e : Bool) (b : Block cw stages) :
    (ptStep c e b).err = b.err := by
  rw [ptStep_writes]
@[simp] theorem ptStep_sync (c : Parameters) (e : Bool) (b : Block cw stages) :
    (ptStep c e b).sync = b.sync := by
  rw [ptStep_writes]

/-! ### Acceptance (R110) -/

/-- A word is accepted exactly when `rst` = 0, `cmd_valid` = 1 and its kind is ready (R110). -/
theorem accepted_eq_some (c : Parameters) (p : Pins) (b : Block cw stages) (k : Decoded) :
    accepted c p b = some k
      ↔ p.rst = false ∧ p.cmdValid = true ∧ decode p.cmd = k ∧ ready c k b = true := by
  unfold accepted cmdReady
  constructor
  · intro h
    split at h
    · cases h
      simp_all
    · cases h
  · rintro ⟨h1, h2, rfl, h4⟩
    simp [h1, h2, h4]

/-- Nothing is accepted exactly when one of the three conditions of R110 fails. -/
theorem accepted_eq_none (c : Parameters) (p : Pins) (b : Block cw stages) :
    accepted c p b = none
      ↔ p.rst = true ∨ p.cmdValid = false ∨ ready c (decode p.cmd) b = false := by
  unfold accepted cmdReady
  cases p.rst <;> cases p.cmdValid <;> cases ready c (decode p.cmd) b <;> simp

/-- An accepted operation found the block free, or is a TXB in the last cycle of a frame (R111). -/
theorem ready_of_busy (c : Parameters) (k : Decoded) (b : Block cw stages) (hb : busy b = true)
    (hr : ready c k b = true) :
    k = .legal .nop ∨ (∃ why, k = .illegal why)
      ∨ (txLast c b = true ∧ ∃ d, k = .legal (.txb d)) := by
  rcases k with (_ | d | _ | _) | why <;> simp_all [ready, txbReady]

/-! ### The forms of a cycle (R115) -/

/-- Reset wins over everything (R124, R134). -/
theorem cycle_of_rst (c : Parameters) (p : Pins) (b : Block cw stages) (h : p.rst = true) :
    cycle c p b = resetBlock := by
  simp [cycle, h]

/-- With nothing accepted, only the engines and the synchroniser move. -/
theorem cycle_of_none (c : Parameters) (p : Pins) (b : Block cw stages) (h : p.rst = false)
    (ha : accepted c p b = none) :
    cycle c p b = latchEcho p.echoPin (engines c (echoSample b.sync p.echoPin) b) := by
  simp [cycle, h, ha]

/-- An accepted word writes after the engines (R15). -/
theorem cycle_of_some (c : Parameters) (p : Pins) (b : Block cw stages) (k : Decoded)
    (ha : accepted c p b = some k) :
    cycle c p b
      = latchEcho p.echoPin (wordEffect c k (engines c (echoSample b.sync p.echoPin) b)) := by
  have h : p.rst = false := ((accepted_eq_some c p b k).1 ha).1
  simp [cycle, h, ha]

/-- The synchroniser moves in every cycle without reset, whatever is accepted (R41). -/
theorem cycle_sync (c : Parameters) (p : Pins) (b : Block cw stages) (h : p.rst = false) :
    (cycle c p b).sync = syncShift b.sync p.echoPin := by
  have he : ∀ e, (engines c e b).sync = b.sync := by intro e; simp [engines]
  rcases ha : accepted c p b with _ | k
  · rw [cycle_of_none c p b h ha]; simp [he]
  · rw [cycle_of_some c p b k ha]
    rcases k with (_ | d | _ | _) | why <;> simp [wordEffect, commandEffect, he]

/-! ### Runs -/

@[simp] theorem runCycles_nil (c : Parameters) (b : Block cw stages) : runCycles c [] b = b := rfl

@[simp] theorem runCycles_cons (c : Parameters) (p : Pins) (ps : List Pins) (b : Block cw stages) :
    runCycles c (p :: ps) b = runCycles c ps (cycle c p b) := rfl

/-- A run of one list after another. -/
theorem runCycles_append (c : Parameters) (ps qs : List Pins) (b : Block cw stages) :
    runCycles c (ps ++ qs) b = runCycles c qs (runCycles c ps b) := by
  induction ps generalizing b with
  | nil => rfl
  | cons p ps ih => exact ih _

end Sys2Proof.Machine
end

