-- ==== Sys2Proof/Laws/Counter.lean ====
section
/-! SUPPORT. What one counting step (rule R95) does to the number the counter holds, for every P and every CW. -/

namespace Sys2Proof.Machine

open Sys2Proof.Config

variable {cw stages : Nat}

/-- The counter holds n counting steps: PSC = n mod P and (OVF + TOV) × MOD + CNT = floor(n / P) (I-3 of R53). -/
def Block.HoldsSteps (c : Parameters) (b : Block cw stages) (n : Nat) : Prop :=
  b.psc.toNat = n % c.prescale ∧ (b.ovf.toNat + b.tov.toNat) * 2 ^ cw + b.cnt.toNat = n / c.prescale

/-- `tick` in numbers. -/
theorem tick_iff (c : Parameters) (b : Block cw stages) :
    tick c b = true ↔ b.psc.toNat = c.prescale - 1 := by
  simp [tick]

/-- The remainder after one more step. -/
theorem succ_mod_of_ne {n P : Nat} (h : n % P + 1 < P) : (n + 1) % P = n % P + 1 := by
  rw [Nat.add_mod, Nat.mod_eq_of_lt (by omega : 1 < P), Nat.mod_eq_of_lt h]

/-- The quotient after one more step, short of a tick. -/
theorem succ_div_of_ne {n P : Nat} (h : n % P + 1 < P) : (n + 1) / P = n / P := by
  rw [Nat.succ_div, if_neg]
  · rfl
  · intro hd
    have := Nat.mod_eq_zero_of_dvd hd
    rw [succ_mod_of_ne h] at this
    omega

/-- The remainder after a tick. -/
theorem succ_mod_of_eq {n P : Nat} (h : n % P + 1 = P) : (n + 1) % P = 0 := by
  have hd := Nat.div_add_mod n P
  have : n + 1 = P * (n / P) + P := by omega
  rw [this, Nat.add_mod_right, Nat.mul_mod_right]

/-- The quotient after a tick. -/
theorem succ_div_of_eq {n P : Nat} (h : n % P + 1 = P) : (n + 1) / P = n / P + 1 := by
  rw [Nat.succ_div, if_pos (Nat.dvd_of_mod_eq_zero (succ_mod_of_eq h))]

/-- CNT after a tick, and the wrap it makes: together one more than before. -/
theorem cnt_succ_of_le (hcw : 1 ≤ cw) (x : BitVec cw) :
    (x == BitVec.allOnes cw).toNat * 2 ^ cw + (x + 1).toNat = x.toNat + 1 := by
  have h2 : 2 ≤ 2 ^ cw := Nat.le_self_pow (by omega) 2
  have hlt := x.isLt
  have h1 : (1 : BitVec cw).toNat = 1 := by
    simpa using Nat.mod_eq_of_lt (by omega : 1 < 2 ^ cw)
  by_cases hx : x = BitVec.allOnes cw
  · have hn : x.toNat = 2 ^ cw - 1 := by rw [hx]; simp
    have : (x + 1).toNat = 0 := by
      rw [BitVec.toNat_add, hn, h1, Nat.sub_add_cancel (by omega), Nat.mod_self]
    rw [this, hn]
    simp [hx]
    omega
  · have hn : x.toNat ≠ 2 ^ cw - 1 := fun h => hx (BitVec.eq_of_toNat_eq (by simpa using h))
    have : (x + 1).toNat = x.toNat + 1 := by
      rw [BitVec.toNat_add, h1, Nat.mod_eq_of_lt (by omega)]
    rw [this]
    simp [hx]

/-- One counting step adds one, for every P ≥ 1 and every CW from 1 to 32, as long as the total fits 32 bits: no wrap
is lost (R96) and OVF does not overflow (R101). -/
theorem holdsSteps_countingStep (c : Parameters) (hP : 1 ≤ c.prescale ∧ c.prescale ≤ 65536)
    (hcw : 1 ≤ cw ∧ cw ≤ 32) (b : Block cw stages) (n : Nat) (hn : n < 2 ^ 32)
    (h : b.HoldsSteps c n) : (countingStep c b).HoldsSteps c (n + 1) := by
  obtain ⟨hpsc, hsum⟩ := h
  have hlt : n % c.prescale < c.prescale := Nat.mod_lt _ (by omega)
  have hfit : b.ovf.toNat + b.tov.toNat < 2 ^ (32 - cw) := by
    have hq : n / c.prescale < 2 ^ 32 := lt_of_le_of_lt (Nat.div_le_self _ _) hn
    have hp : 2 ^ 32 = 2 ^ (32 - cw) * 2 ^ cw := by rw [← pow_add]; congr 1; omega
    rw [hp] at hq
    by_contra hcon
    have := Nat.mul_le_mul_right (2 ^ cw) (not_lt.1 hcon)
    omega
  have hovf : (b.ovf + BitVec.ofNat (32 - cw) b.tov.toNat).toNat = b.ovf.toNat + b.tov.toNat := by
    rw [BitVec.toNat_add, BitVec.toNat_ofNat, Nat.add_mod_mod, Nat.mod_eq_of_lt hfit]
  have hcnt := cnt_succ_of_le hcw.1 b.cnt
  unfold Block.HoldsSteps
  rw [countingStep_psc, countingStep_cnt, countingStep_ovf, countingStep_tov, hovf]
  by_cases ht : b.psc.toNat = c.prescale - 1
  · have ht' : tick c b = true := (tick_iff c b).2 ht
    have hs : n % c.prescale + 1 = c.prescale := by omega
    rw [if_pos ht', if_pos ht', succ_mod_of_eq hs, succ_div_of_eq hs, ← hsum]
    refine ⟨rfl, ?_⟩
    unfold wrap
    rw [ht', Bool.true_and, Nat.add_mul]
    omega
  · have ht' : tick c b = false := by rw [← Bool.not_eq_true, tick_iff]; exact ht
    have hs : n % c.prescale + 1 < c.prescale := by omega
    have hone : (1 : BitVec 16).toNat = 1 := rfl
    simp only [ht', wrap, Bool.false_and, Bool.toNat_false, Nat.add_zero, Bool.false_eq_true, if_false]
    rw [succ_mod_of_ne hs, succ_div_of_ne hs, ← hsum, BitVec.toNat_add, hone, hpsc]
    exact ⟨Nat.mod_eq_of_lt (by omega), rfl⟩

/-- The 32-bit sum of R100 is exact while the count fits 32 bits (R101). -/
theorem extendedCount_toNat (c : Parameters) (hcw : cw ≤ 32) (b : Block cw stages) (n : Nat)
    (hn : n < 2 ^ 32) (h : b.HoldsSteps c n) : (extendedCount b).toNat = n / c.prescale := by
  have hq : n / c.prescale < 2 ^ 32 := lt_of_le_of_lt (Nat.div_le_self _ _) hn
  have h2 := h.2
  have ho : b.ovf.toNat < 2 ^ 32 :=
    lt_of_lt_of_le b.ovf.isLt (Nat.pow_le_pow_right (by omega) (by omega))
  have hc : b.cnt.toNat < 2 ^ 32 := lt_of_lt_of_le b.cnt.isLt (Nat.pow_le_pow_right (by omega) hcw)
  unfold extendedCount
  simp only [BitVec.toNat_add, BitVec.toNat_mul, BitVec.toNat_setWidth, BitVec.toNat_ofNat]
  rw [Nat.mod_eq_of_lt hc, Nat.mod_eq_of_lt ho]
  simp only [Nat.add_mod_mod, Nat.mod_add_mod, Nat.mul_mod_mod, Nat.mod_mul_mod]
  rw [h2, Nat.mod_eq_of_lt hq]

end Sys2Proof.Machine
end

