-- ==== Sys2Proof/Laws/PerInstr.lean ====
section
/-! SUPPORT. The family WordOfRow, one lemma per command: its word lies in its own row of the opcode map (rule R75) and in
no other. -/

namespace Sys2Proof.Laws.WordOfRow

/-- The word of a command matches its row of R75, and every row of the map that it matches is that one. -/
def Statement (i : Instr) : Prop :=
  i.row ∈ opcodeRows ∧ i.row.covers (encode i) = true
    ∧ ∀ r ∈ opcodeRows, r.covers (encode i) = true → r = i.row

theorem nop : Statement .nop := by
  refine ⟨by decide, by decide, by decide⟩

theorem txb (imm8 : Byte) : Statement (.txb imm8) := by
  have h : ∀ b : Byte, ∀ r ∈ opcodeRows, r.covers (encode (.txb b)) = true ↔ r = ⟨"TXB", 0x1000#16, 0xFF00#16⟩ := by
    decide
  exact ⟨by simp [Instr.row, opcodeRows], (h imm8 _ (by simp [Instr.row, opcodeRows])).2 rfl,
    fun r hr hc => (h imm8 r hr).1 hc⟩

theorem trig : Statement .trig := by
  refine ⟨by decide, by decide, by decide⟩

theorem meas : Statement .meas := by
  refine ⟨by decide, by decide, by decide⟩

end Sys2Proof.Laws.WordOfRow
end

