-- ==== Sys2Proof/Tests/Slice0.lean ====
section
/-! SUPPORT. Our own tests: the smoke test of the well-formedness checks, decoding of words written out from rule R75, one
step of each part against the vectors of 95_test_vectors.md, and a witness for the hypotheses of each statement
that has some. -/

namespace Sys2Proof.Tests

open Sys2Proof Sys2Proof.Machine Sys2Proof.Config

/-! ### Configurations of 95_test_vectors.md, and a small one for the witnesses -/

/-- TC1 of 95_test_vectors.md. -/
def tc1 : Parameters :=
  { clkHz := 1, bitCycles := 2, trigCycles := 2, prescale := 1, counterWidth := 8,
    riseBudget := 4, fallBudget := 700, syncStages := 0 }

/-- TC2 of 95_test_vectors.md. -/
def tc2 : Parameters :=
  { clkHz := 1, bitCycles := 2, trigCycles := 2, prescale := 4, counterWidth := 2,
    riseBudget := 3, fallBudget := 40, syncStages := 0 }

/-- A configuration with short budgets and two synchroniser stages, for the witnesses. -/
def tiny : Parameters :=
  { clkHz := 1, bitCycles := 2, trigCycles := 2, prescale := 2, counterWidth := 1,
    riseBudget := 2, fallBudget := 3, syncStages := 2 }

/-- A cycle in which the host offers w. -/
def offering (w : Word) : Pins := { rst := false, cmdValid := true, cmd := w, echoPin := false }

/-- A cycle in which nothing is offered and the echo pin has the given level. -/
def quiet (echo : Bool) : Pins := { rst := false, cmdValid := false, cmd := 0, echoPin := echo }

/-! ### Well-formedness: an ill-formed term for each check -/

theorem smoke_txb_operand_above_255 : (Stmt.txb 256).wellFormed = false := by decide
theorem smoke_txb_operand_255 : (Stmt.txb 255).wellFormed = true := by decide
theorem smoke_word_above_ffff : (Stmt.word 65536).wellFormed = false := by decide
theorem smoke_every_command : ∀ i ∈ [Instr.nop, .txb 0xFF#8, .trig, .meas], i.wellFormed = true := by decide
theorem smoke_rc1_legal : rc1.Legal ∧ tc1.Legal ∧ tc2.Legal ∧ tiny.Legal := by decide
theorem smoke_clock_zero : ({ rc1 with clkHz := 0 } : Parameters).outOfRange = [.clkHz] := by decide
theorem smoke_bit_period_zero : ({ rc1 with bitCycles := 0 } : Parameters).outOfRange = [.bitCycles] := by
  decide
theorem smoke_trigger_too_long :
    ({ rc1 with trigCycles := 65537 } : Parameters).outOfRange = [.trigCycles] := by decide
theorem smoke_prescale_zero : ({ rc1 with prescale := 0 } : Parameters).outOfRange = [.prescale] := by decide
theorem smoke_counter_17_bits :
    ({ rc1 with counterWidth := 17 } : Parameters).outOfRange = [.counterWidth] := by decide
theorem smoke_rise_budget_zero :
    ({ rc1 with riseBudget := 0 } : Parameters).outOfRange = [.riseBudget] := by decide
theorem smoke_fall_budget_too_long :
    ({ rc1 with fallBudget := 4294967296 } : Parameters).outOfRange = [.fallBudget] := by decide
theorem smoke_four_stages :
    ({ rc1 with syncStages := 4 } : Parameters).outOfRange = [.syncStages] := by decide

/-! ### Decoding: words written out bit by bit from R75, and V-CP-6 -/

theorem decode_nop_word : decode 0b0000000000000000#16 = .legal .nop := by decide
theorem decode_txb_word : decode 0b0001000001000001#16 = .legal (.txb 0x41#8) := by decide
theorem decode_trig_word : decode 0b0010000000000000#16 = .legal .trig := by decide
theorem decode_meas_word : decode 0b0011000000000000#16 = .legal .meas := by decide
theorem decode_illegal_words :
    [0x0001#16, 0x0100#16, 0x1100#16, 0x2001#16, 0x3080#16, 0x4000#16, 0xFFFF#16].map decode
      = [.illegal .operandFieldSet, .illegal .reservedFieldSet, .illegal .reservedFieldSet,
         .illegal .operandFieldSet, .illegal .operandFieldSet, .illegal .unassignedOpcode,
         .illegal .unassignedOpcode] := by decide
theorem decodeTableWord_rows :
    [0x0000, 0x10FF, 0x2000, 0x3000, 0x1100].map (decodeTableWord 16)
      = [some .nop, some (.txb 0xFF#8), some .trig, some .meas, none] := by decide
theorem encode_words :
    [Instr.nop, .txb 0x48#8, .trig, .meas].map encode = [0x0000#16, 0x1048#16, 0x2000#16, 0x3000#16] := by
  decide

/-! ### One step of each part -/

/-- A block of TC1 after reset. -/
def start : Block 8 0 := resetBlock

/-- V-TX-1, cycle 1: the start bit, and STATUS 0x03. -/
theorem test_txb_starts_frame :
    let t := cycle tc1 (offering 0x1041#16) start
    txRegisters t = (false, true, 0, 0, 0x41#8) ∧ status tc1 t = 0x0003#16 := by decide

/-- V-TX-1, cycle 3: TX_IDX = 1, TX_CNT = 0, and d0 = 1 on the line. -/
theorem test_tx_next_bit :
    txRegisters (cycle tc1 (quiet false) { start with txAct := true, txOut := false, txCnt := 1, txData := 0x41#8 })
      = (true, true, 1, 0, 0x41#8) := by decide

/-- V-TX-1, cycle 20: TX_LAST, STATUS 0x43; and V-CP-4: TRIG is held there. -/
theorem test_last_stop_bit_cycle :
    let t := { start with txAct := true, txIdx := 9, txCnt := 1, txData := 0x41#8 }
    status tc1 t = 0x0043#16 ∧ accepted tc1 (offering 0x2000#16) t = none
      ∧ accepted tc1 (offering 0x1069#16) t = some (.legal (.txb 0x69#8)) := by decide

/-- V-PT-14, cycles 1 to 3: TRG_CNT = T − 1, STATUS 0x05, and the pulse ends after T = 2 cycles. -/
theorem test_trig_pulse :
    let t := cycle tc1 (offering 0x2000#16) start
    trigRegisters t = (true, 1) ∧ status tc1 t = 0x0005#16
      ∧ (runCycles tc1 [quiet false, quiet false] t).trigOut = false := by decide

/-- V-PT-1, cycle 1: STATUS 0x09, TA = M; TRIG does not come with it. -/
theorem test_meas_starts :
    let t := cycle tc1 (offering 0x3000#16) { start with dur := 5, ptStat := .ok }
    status tc1 t = 0x0009#16 ∧ t.ta = 4 ∧ t.dur = 0 ∧ t.trigOut = false := by decide

/-- V-PT-4: a wrap on the edge of the fall is counted, DUR = 256, CNT = 0, TOV = 1. -/
theorem test_wrap_at_the_fall :
    let t := cycle tc1 (quiet false) { start with ptPhase := .fall, ptStat := .run, tb := 445, cnt := 255 }
    t.dur = 256 ∧ t.cnt = 0 ∧ t.tov = true ∧ t.ptStat = .ok ∧ t.ptPhase = .idle := by decide

/-- V-PT-18: OVF = 2, CNT = 87 and the fall give DUR = 600. -/
theorem test_six_hundred_ticks :
    (cycle tc1 (quiet false)
      ({ start with ptPhase := .fall, ptStat := .run, tb := 101, cnt := 87, ovf := 2 } : Block 8 0)).dur = 600 := by
  decide

/-- V-PT-13 (TC2), cycles 17 to 18: PSC = 3 and CNT = 3 go to 0 and TOV = 1. -/
theorem test_prescaled_wrap :
    let t := cycle tc2 (quiet true)
      ({ resetBlock with ptPhase := .fall, ptStat := .run, tb := 25, psc := 3, cnt := 3 } : Block 2 0)
    (t.psc, t.cnt, t.tov, t.ovf, t.tb) = (0, 0, true, 0, 24) := by decide

/-- V-PT-9 and V-PT-12: both timeouts, STATUS 0x58 and DUR = 0. -/
theorem test_timeouts :
    let a := cycle tc1 (quiet false) { start with ptPhase := .rise, ptStat := .run, ta := 1 }
    let f := cycle tc1 (quiet true) { start with ptPhase := .fall, ptStat := .run, tb := 1 }
    status tc1 a = 0x0058#16 ∧ a.dur = 0 ∧ status tc1 f = 0x0058#16 ∧ f.dur = 0 := by decide

/-- V-CP-1: an illegal word that looks like TXB sets ERR and sends nothing: STATUS 0x60. -/
theorem test_illegal_word :
    let t := cycle tc1 (offering 0x1141#16) start
    status tc1 t = 0x0060#16 ∧ t = { start with err := true } := by decide

/-- V-CP-2: a NOP during a frame is accepted and changes nothing. -/
theorem test_nop_during_a_frame :
    let t := { start with txAct := true, txOut := true, txIdx := 2, txCnt := 1, txData := 0x41#8 }
    accepted tc1 (offering 0x0000#16) t = some (.legal .nop)
      ∧ cycle tc1 (offering 0x0000#16) t = cycle tc1 (quiet false) t := by decide

/-- V-TX-9: reset cuts a frame at once. -/
theorem test_reset_cuts_a_frame :
    cycle tc1 { offering 0x1041#16 with rst := true } { start with txAct := true, txOut := false } = start := by
  decide

/-- R41 and R42 with S = 2: SYNC[2] is sampled, and SYNC takes in the pin. -/
theorem test_synchroniser :
    echoSample (0b10#2) false = true ∧ echoSample (0b01#2) true = false
      ∧ syncShift (0b01#2) true = 0b11#2 ∧ echoSample (0#0) true = true := by decide

/-- The machine itself: the host's word is taken from the port in the first cycle after reset (R136). -/
theorem test_first_step_runs_txb :
    ∃ t, step (State.reset.withFetchWord 16 0x1041) = .next t ∧ txRegisters t.toBlock = (false, true, 0, 0, 0x41#8)
      ∧ t.script = [] ∧ t.elapsed = 1 := ⟨_, rfl, rfl, rfl, rfl⟩

/-- P1 to P3: the assembler's words for PING, TXB '0', a raw word and a string with escapes. -/
theorem test_assembler :
    assemble ["  ping ; go".toList, "TXB '0'".toList, ".word 0xF000".toList, "TXS \"Hi\\r\"".toList, "NOP 1".toList]
      = [0x2000#16, 0x3000#16, 0x1030#16, 0xF000#16, 0x1048#16, 0x1069#16, 0x100D#16] := by decide

/-- R77: the lines an assembler must reject. -/
theorem test_assembler_rejects :
    ["TXB 256".toList, "TXB".toList, "TRIG 1".toList, "MEAX".toList, "TXB 0b2".toList].map
        (fun l => match assembleLine l with | .ok _ => none | .error e => some e)
      = [some .operandOutOfRange, some .missingOperand, some .unexpectedOperand, some .unknownMnemonic,
         some .badOperand] := by decide

/-! ### Witnesses: the hypotheses of each statement, met together -/

/-- The reset state of a block of `tiny`. -/
def tinyReset : Block tiny.counterWidth tiny.syncStages := resetBlock

/-- Its state in the middle of a measurement's Phase A and Phase B, at the budgets' last sample. -/
def tinyRise : Block tiny.counterWidth tiny.syncStages :=
  { resetBlock with ptPhase := .rise, ptStat := .run, ta := 1 }
def tinyFall : Block tiny.counterWidth tiny.syncStages :=
  { resetBlock with ptPhase := .fall, ptStat := .run, tb := 1, cnt := 1 }

theorem witness_ResetStateHoldsTheTableOfR52 : ∃ p : Pins, p.rst = true :=
  ⟨{ offering 0 with rst := true }, rfl⟩

theorem witness_ResetEdgeWinsOverEverything : ∃ (_ : State) (p : Pins), p.rst = true :=
  ⟨State.reset, { offering 0x1041#16 with rst := true }, rfl⟩

theorem witness_DecodeOfEncodeIsTheCommand : (Instr.txb 0xFF#8).wellFormed = true := by decide

theorem witness_EncodeOfDecodeIsTheWord : decode 0x10FF#16 = .legal (.txb 0xFF#8) := by decide

theorem witness_StepRunsTheAcceptedCommand :
    let s := State.reset.withFetchWord 16 0x1041
    (Instr.txb 0x41#8).wellFormed = true ∧ s.pins.rst = false ∧ s.pins.cmdValid = true
      ∧ decode s.pins.cmd = .legal (.txb 0x41#8) ∧ ready params (.legal (.txb 0x41#8)) s.toBlock = true :=
  ⟨rfl, rfl, rfl, by decide, rfl⟩

theorem witness_FirstCommandAfterResetRuns : Instr.meas.wellFormed = true := rfl

theorem witness_NextRegistersDependOnRegistersAndPinsOnly :
    let s := State.reset.withPins (quiet true)
    let s' : State := { s with script := [quiet true, offering 0], elapsed := 7 }
    s.toBlock = s'.toBlock ∧ s.pins = s'.pins := ⟨rfl, rfl⟩

theorem witness_OfferedNopIsLikeNoCommand :
    (offering 0).cmd = 0x0000#16 ∧ (offering 0).rst = false ∧ (offering 0).cmdValid = true := by decide

/-- One clause for an acceptance, one for a word offered during reset. -/
theorem witness_IllegalWordOnlySetsErr :
    ((∀ r ∈ opcodeRows, r.covers (offering 0xF000#16).cmd = false) ∧ (offering 0xF000#16).cmdValid = true
      ∧ (offering 0xF000#16).rst = false)
    ∧ (let p := { offering 0x1100#16 with rst := true }
       (∀ r ∈ opcodeRows, r.covers p.cmd = false) ∧ p.cmdValid = true ∧ p.rst = true) := by decide

theorem witness_OnlyAcceptedWordsHaveAnEffect :
    accepted params (offering 0x3000#16) { State.reset.toBlock with trigOut := true } = none := by rfl

theorem witness_FrameHoldsEachLevelForBCycles :
    tiny.Legal ∧ oneOperation tinyReset
      ∧ accepted tiny (offering 0x1041#16) tinyReset = some (.legal (.txb 0x41#8))
      ∧ noReset (List.replicate 19 (quiet true)) ∧ (quiet true).rst = false
      ∧ (List.replicate 19 (quiet true)).length + 1 = 10 * tiny.bitCycles := by decide

/-- "Hi", the second byte offered through the whole first frame. -/
theorem witness_StringFramesFollowWithoutGap :
    tiny.Legal ∧ accepted tiny (offering 0x1048#16) tinyReset = some (.legal (.txb 0x48#8))
      ∧ noReset (List.replicate 39 (offering 0x1069#16))
      ∧ (List.replicate 39 (offering 0x1069#16)).length + 1 = 10 * tiny.bitCycles * ([0x69#8].length + 1)
      ∧ ∀ (m : Nat) (q : Pins) (next : Byte), (List.replicate 39 (offering 0x1069#16))[m]? = some q →
          [0x69#8][m / (10 * tiny.bitCycles)]? = some next →
          q.cmdValid = true ∧ q.cmd = 0x1000#16 ||| next.setWidth 16 := by
  refine ⟨by decide, by decide, by decide, by decide, ?_⟩
  intro m q next hq hn
  have h1 : q = offering 0x1069#16 := List.eq_of_mem_replicate (List.mem_of_getElem? hq)
  have h2 : next = 0x69#8 := by simpa using List.mem_of_getElem? hn
  subst h1 h2
  decide

theorem witness_IdleLineStaysHigh :
    tinyReset.txAct = false ∧ tinyReset.txOut = true
      ∧ ∀ (m : Nat) (q : Pins) (d : Byte), [offering 0x3000#16][m]? = some q →
          accepted tiny q (runCycles tiny ([offering 0x3000#16].take m) tinyReset)
            ≠ some (.legal (.txb d)) := by
  refine ⟨rfl, rfl, ?_⟩
  intro m q d hq h
  have hq' : q = offering 0x3000#16 := by simpa using List.mem_of_getElem? hq
  have hd := ((accepted_eq_some _ _ _ _).1 h).2.2.1
  rw [hq', show decode (offering 0x3000#16).cmd = .legal .meas by decide] at hd
  cases hd

theorem witness_TxbInTheLastCycleStartsTheNextFrame :
    let b : Block tiny.counterWidth tiny.syncStages := { tinyReset with txAct := true, txIdx := 9, txCnt := 1 }
    let p := offering 0x1069#16
    p.rst = false ∧ p.cmdValid = true ∧ decode p.cmd = .legal (.txb 0x69#8) ∧ txLast tiny b = true := by decide

/-- The clauses: an accepted TXB; else idle, within a bit, the end of the stop bit, and the end of the start bit. -/
theorem witness_TxEngineStepsThroughTheFrame :
    (offering 0x1041#16).rst = false ∧ (quiet true).rst = false
    ∧ accepted tiny (offering 0x1041#16) tinyReset = some (.legal (.txb 0x41#8))
    ∧ (∀ (b : Block tiny.counterWidth tiny.syncStages) (d : Byte),
        accepted tiny (quiet true) b ≠ some (.legal (.txb d)))
    ∧ tinyReset.txAct = false
    ∧ (let b := { tinyReset with txAct := true }
       b.txAct = true ∧ b.txCnt.toNat ≠ tiny.bitCycles - 1)
    ∧ (let b := { tinyReset with txAct := true, txCnt := 1, txIdx := 9 }
       b.txAct = true ∧ b.txCnt.toNat = tiny.bitCycles - 1 ∧ b.txIdx = 9)
    ∧ (let b := { tinyReset with txAct := true, txCnt := 1, txIdx := 0 }
       b.txAct = true ∧ b.txCnt.toNat = tiny.bitCycles - 1 ∧ b.txIdx ≠ 9) := by
  refine ⟨rfl, rfl, by decide, fun b d h => ?_, by decide, by decide, by decide, by decide⟩
  exact absurd ((accepted_eq_some _ _ _ _).1 h).2.1 (by decide)

/-- Both implications: two blocks that differ in PT registers only, and two that differ in TX_DATA only. -/
theorem witness_TransmitterAndPulseTimerDoNotInterfere :
    (let b := { tinyRise with ta := 2 }
     txRegisters tinyRise = txRegisters b ∧ busy tinyRise = busy b
      ∧ (quiet true).rst = (quiet false).rst ∧ (quiet true).cmdValid = (quiet false).cmdValid
      ∧ (quiet true).cmd = (quiet false).cmd)
    ∧ (let b := { tinyRise with txData := 7 }
       ptRegisters tinyRise = ptRegisters b ∧ tinyRise.sync = b.sync ∧ busy tinyRise = busy b) :=
  ⟨⟨rfl, rfl, rfl, rfl, rfl⟩, rfl, rfl, rfl⟩

theorem witness_TriggerPulseLastsTCycles :
    tiny.Legal ∧ accepted tiny (offering 0x2000#16) tinyReset = some (.legal .trig)
      ∧ noReset [quiet false, offering 0x3000#16]
      ∧ [quiet false, offering 0x3000#16].length = tiny.trigCycles := by decide

theorem witness_PingMeasuresRightAfterThePulse :
    let ps := List.replicate 3 (offering 0x3000#16)
    tiny.Legal ∧ accepted tiny (offering 0x2000#16) tinyReset = some (.legal .trig) ∧ noReset ps
      ∧ ps.length = tiny.trigCycles + 1 ∧ ∀ q ∈ ps, q.cmdValid = true ∧ q.cmd = 0x3000#16 := by decide

/-- All three clauses of the Phase A step: a sample of 1, a spent budget, a decrement. -/
theorem witness_PhaseAStepTestsThenDecrements :
    tiny.Legal ∧ (quiet true).rst = false
    ∧ (let b := { tinyRise with sync := 0b10#2 }
       b.ptPhase = .rise ∧ echoSample b.sync (quiet true).echoPin = true)
    ∧ (tinyRise.ptPhase = .rise ∧ echoSample tinyRise.sync (quiet true).echoPin = false ∧ tinyRise.ta = 1)
    ∧ (let b := { tinyRise with ta := 2 }
       b.ptPhase = .rise ∧ echoSample b.sync (quiet true).echoPin = false ∧ b.ta ≠ 1) := by decide

/-- All clauses of the Phase B step: a sample of 0, a spent budget, a decrement; and, after the fall, a cycle outside
Phase B. -/
theorem witness_PhaseBStepCountsThenDecides :
    (quiet true).rst = false
    ∧ (tinyFall.ptPhase = .fall ∧ echoSample tinyFall.sync (quiet true).echoPin = false)
    ∧ (let b := { tinyFall with sync := 0b10#2 }
       b.ptPhase = .fall ∧ echoSample b.sync (quiet true).echoPin = true ∧ b.tb = 1)
    ∧ (let b := { tinyFall with sync := 0b10#2, tb := 3 }
       b.ptPhase = .fall ∧ echoSample b.sync (quiet true).echoPin = true ∧ b.tb ≠ 1)
    ∧ (let qs := [quiet true]
       noReset qs ∧ ∀ m, m ≤ qs.length →
         (runCycles tiny (qs.take m) (cycle tiny (quiet true) tinyFall)).ptPhase ≠ .fall) := by decide

theorem witness_CounterStandsStillOutsidePhaseB :
    (offering 0x3000#16).rst = false ∧ tinyReset.ptPhase ≠ .fall
      ∧ (cycle tiny (offering 0x3000#16) tinyReset).ptPhase ≠ .fall := by decide

/-- At a wrap (n = P × MOD) and at the largest n. -/
theorem witness_CounterLosesNoWrap :
    tiny.Legal ∧ 4 < 2 ^ 32 ∧ 4294967295 < 2 ^ 32 ∧ tinyReset.cnt = 0 ∧ tinyReset.psc = 0
      ∧ tinyReset.tov = false ∧ tinyReset.ovf = 0 := by decide

theorem witness_EchoSampleIsThePinSCyclesEarlier :
    noReset [quiet true, quiet false] ∧ tiny.syncStages ≤ [quiet true, quiet false].length := by decide

theorem witness_PhaseATimesOutAfterMSamples :
    let ps := [quiet true, quiet true]
    tiny.Legal ∧ accepted tiny (offering 0x3000#16) tinyReset = some (.legal .meas) ∧ noReset ps
      ∧ echoSamples (cycle tiny (offering 0x3000#16) tinyReset).sync ps
          = List.replicate tiny.riseBudget false := by decide

/-- The boundary k = M, W = N. -/
theorem witness_PulseIsMeasuredAsFloorOfWidthOverP :
    let p := { offering 0x3000#16 with echoPin := true }
    let ps := [quiet true, quiet true, quiet false, quiet false, quiet false]
    tiny.Legal ∧ accepted tiny p tinyReset = some (.legal .meas) ∧ noReset ps
      ∧ 1 ≤ 2 ∧ 2 ≤ tiny.riseBudget ∧ 1 ≤ 3 ∧ 3 ≤ tiny.fallBudget
      ∧ echoSamples (cycle tiny p tinyReset).sync ps
          = List.replicate (2 - 1) false ++ List.replicate 3 true ++ [false] := by decide

theorem witness_PhaseBTimesOutAfterNSamples :
    let p := { offering 0x3000#16 with echoPin := true }
    let ps := List.replicate 5 (quiet true)
    tiny.Legal ∧ accepted tiny p tinyReset = some (.legal .meas) ∧ noReset ps
      ∧ 1 ≤ 2 ∧ 2 ≤ tiny.riseBudget
      ∧ echoSamples (cycle tiny p tinyReset).sync ps
          = List.replicate (2 - 1) false ++ List.replicate (tiny.fallBudget + 1) true := by decide

theorem witness_EdgeInTheLastSampleWinsOverTheTimeout :
    (tinyRise.ptPhase = .rise ∧ tinyRise.ta = 1) ∧ (tinyFall.ptPhase = .fall ∧ tinyFall.tb = 1) := by decide

/-- The clauses: no measurement before, and one that goes on. -/
theorem witness_DurationStaysBetweenMeasurements :
    (quiet true).rst = false ∧ accepted tiny (quiet true) tinyReset ≠ some (.legal .meas)
      ∧ tinyReset.ptPhase = .idle
      ∧ accepted tiny (quiet true) { tinyRise with ta := 2 } ≠ some (.legal .meas)
      ∧ (cycle tiny (quiet true) { tinyRise with ta := 2 }).ptPhase ≠ .idle := by decide

/-- A state with a measured result and ERR set, about to take MEAS. -/
def measured : State :=
  { State.reset with ptStat := .ok, dur := 5, err := true, script := [offering 0x3000#16] }

theorem witness_EveryStepKeepsTheInvariants : measured.Inv ∧ ∃ t, step measured = .next t :=
  ⟨by simp [State.Inv, BlockInv, measured, State.reset, resetBlock, statusTracksPhase, oneOperation, counterExact,
      countsInRange, lineFollowsFrame, budgetsInRange, resultZeroUnlessOk], _, rfl⟩

/-- About to take the last budgeted sample of Phase B: two FALL steps have made one tick. -/
def tinyLate : Block tiny.counterWidth tiny.syncStages :=
  { resetBlock with ptPhase := .fall, ptStat := .run, tb := 1, cnt := 1 }

theorem witness_InvariantsHoldInEveryBuildUnderAnyInputs : tiny.Legal := by decide

/-- In Phase B, with a counted tick. -/
theorem witness_EveryCycleOfEveryBuildKeepsTheInvariants : tiny.Legal ∧ BlockInv tiny tinyLate :=
  ⟨by decide, by decide, by decide, by decide, by decide, by decide, by decide, by decide⟩

/-- In the first cycle of a frame. -/
def tinyFrame : Block tiny.counterWidth tiny.syncStages :=
  { resetBlock with txAct := true, txOut := false, txData := 0x41#8 }

/-- From the middle of a frame, and from Phase B. -/
theorem witness_EveryOperationEndsWithinTheBound :
    tiny.Legal ∧ BlockInv tiny tinyFrame ∧ BlockInv tiny tinyLate
      ∧ noReset (List.replicate 20 (quiet true)) ∧ (∀ q ∈ List.replicate 20 (quiet true), q.cmdValid = false)
      ∧ busyBound tiny ≤ (List.replicate 20 (quiet true)).length := by
  refine ⟨by decide, ?_, ?_, by decide, by decide, by decide⟩ <;>
    exact ⟨by decide, by decide, by decide, by decide, by decide, by decide, by decide⟩

theorem witness_EveryHostProgramComesToItsEnd :
    tiny.Legal ∧ BlockInv tiny tinyReset
      ∧ ([0x1041#16].length + 1) * (busyBound tiny + 1) ≤ (List.replicate 42 true).length := by decide

/-- The three clauses: an illegal configuration, this hardware's, and a budget of 0. -/
theorem witness_IllegalConfigurationsAreRefused :
    ¬({ rc1 with bitCycles := 65537 } : Parameters).Legal
      ∧ (rc1.Legal ∧ rc1.counterWidth = 8 ∧ rc1.syncStages = 2)
      ∧ ({ rc1 with fallBudget := 0 } : Parameters).fallBudget = 0 := by decide

theorem witness_AssemblerRejectsWhatIsOutOfRange :
    assembleStmt (.word 0xF000) = .ok [0xF000#16] ∧ 0xF000#16 ∈ [0xF000#16]
      ∧ decode 0xF000#16 = .illegal .unassignedOpcode := ⟨rfl, by decide, by decide⟩

end Sys2Proof.Tests
end

section
/-! PROOFS. The family '00_scope.md': the configurations that are built (rule R9), what a step is (R13 and R115), the
hand-over of frames (R15 and R85), and that every host program comes to its end (R18). -/

/-! ### Configurations inside and outside the ranges of R7 -/

namespace Sys2Proof.Config

/-- Whether one parameter is inside its range of rule R7. -/
def Parameters.inRange (p : Parameters) : Parameter → Prop
  | .clkHz => 0 < p.clkHz
  | .bitCycles => 1 ≤ p.bitCycles ∧ p.bitCycles ≤ 65536
  | .trigCycles => 1 ≤ p.trigCycles ∧ p.trigCycles ≤ 65536
  | .prescale => 1 ≤ p.prescale ∧ p.prescale ≤ 65536
  | .counterWidth => 1 ≤ p.counterWidth ∧ p.counterWidth ≤ 16
  | .riseBudget => 1 ≤ p.riseBudget ∧ p.riseBudget ≤ 2 ^ 32 - 1
  | .fallBudget => 1 ≤ p.fallBudget ∧ p.fallBudget ≤ 2 ^ 32 - 1
  | .syncStages => p.syncStages ≤ 3

/-- A configuration is legal exactly when each parameter is inside its range (R9). -/
theorem Parameters.legal_iff_inRange (p : Parameters) : p.Legal ↔ ∀ x, p.inRange x := by
  constructor
  · rintro ⟨hclk, hbit, htrig, hpre, hcw, hrise, hfall, hsync⟩ x
    cases x <;> assumption
  · exact fun h => ⟨h .clkHz, h .bitCycles, h .trigCycles, h .prescale, h .counterWidth,
      h .riseBudget, h .fallBudget, h .syncStages⟩

/-- One entry of the list of a refusal: it names its parameter exactly when the check fails. -/
theorem mem_ite_nil_singleton {q : Prop} [Decidable q] (x y : Parameter) :
    x ∈ (if q then [] else [y]) ↔ x = y ∧ ¬q := by
  by_cases h : q <;> simp [h]

/-- The list of a refusal names exactly the parameters outside their ranges. -/
theorem Parameters.mem_outOfRange (p : Parameters) (x : Parameter) :
    x ∈ p.outOfRange ↔ ¬p.inRange x := by
  simp only [Parameters.outOfRange, List.mem_append, mem_ite_nil_singleton]
  cases x <;> simp [Parameters.inRange]

/-- An illegal configuration has a parameter to name. -/
theorem Parameters.outOfRange_ne_nil {p : Parameters} (h : ¬p.Legal) : p.outOfRange ≠ [] := by
  obtain ⟨x, hx⟩ := not_forall.1 (mt p.legal_iff_inRange.2 h)
  exact List.ne_nil_of_mem ((p.mem_outOfRange x).2 hx)

/-- An illegal configuration is refused with the parameters outside their ranges (R9). -/
theorem buildFrom_of_not_legal {p : Parameters} (h : ¬p.Legal) :
    buildFrom p = .error (.illegal p.outOfRange) := dif_neg h

/-- A legal configuration of this hardware is built as it stands (R7). -/
theorem buildFrom_of_legal {p : Parameters} (h : p.Legal)
    (hw : p.counterWidth = counterWidth ∧ p.syncStages = syncStages) :
    buildFrom p = .ok { params := p, legal := h, width := hw.1, stages := hw.2 } := by
  unfold buildFrom
  rw [dif_pos h, dif_pos hw]

/-- Settles O48: a refusal's list is `outOfRange`, which names exactly the parameters outside their ranges. -/
theorem illegalConfigurationsAreRefused : Obligations.IllegalConfigurationsAreRefused := by
  unfold Obligations.IllegalConfigurationsAreRefused
  refine fun p => ⟨fun h => ?_, fun h hcw hs => ?_, fun hzero h => ?_⟩
  · refine ⟨p.outOfRange, Parameters.outOfRange_ne_nil h, buildFrom_of_not_legal h, fun x => ?_⟩
    rw [p.mem_outOfRange x]
    cases x <;> simp only [Parameters.inRange] <;> omega
  · exact ⟨_, buildFrom_of_legal h ⟨hcw, hs⟩, rfl⟩
  · have hrise := h.riseBudget
    have hfall := h.fallBudget
    omega

end Sys2Proof.Config

namespace Sys2Proof.Machine

open Sys2Proof.Config

variable {cw stages : Nat}

/-! ### The forms of a step, beside those of a cycle (R115) -/

/-- An accepted command never stops, and its effect is part 4 of R115 on the registers. -/
theorem exec_eq_commandEffect (i : Instr) (s : State) :
    exec i s = .next (s.withBlock (commandEffect params i s.toBlock)) := by
  cases i <;> rfl

/-- Reset wins over everything (R134). -/
theorem step_of_rst (s : State) (h : s.pins.rst = true) :
    step s = .next (s.withBlock resetBlock).nextCycle := by
  simp [step, clockEdge, h]

/-- With nothing accepted, only the engines and the synchroniser move. -/
theorem step_of_none (s : State) (h : s.pins.rst = false) (ha : accepted params s.pins s.toBlock = none) :
    step s = .next ((s.withBlock (engines params (echoSample s.sync s.pins.echoPin) s.toBlock)).endCycle
      s.pins) := by
  simp [step, clockEdge, h, ha]

/-- An accepted word, a command or ILLEGAL, writes after the engines (R15). -/
theorem step_of_some (s : State) (k : Decoded) (ha : accepted params s.pins s.toBlock = some k) :
    step s = .next ((s.withBlock
      (wordEffect params k (engines params (echoSample s.sync s.pins.echoPin) s.toBlock))).endCycle s.pins) := by
  have h : s.pins.rst = false := ((accepted_eq_some _ _ _ _).1 ha).1
  cases k with
  | legal i => simp [step, clockEdge, h, ha, exec_eq_commandEffect, wordEffect]
  | illegal why => simp [step, clockEdge, h, ha, wordEffect]

/-- Settles O9, by the three forms that a step and a cycle share: reset, nothing accepted, an accepted word. -/
theorem stepIsTheCycleFunction : Obligations.StepIsTheCycleFunction := by
  unfold Obligations.StepIsTheCycleFunction
  intro s
  cases hr : s.pins.rst with
  | true => rw [step_of_rst s hr, cycle_of_rst _ _ _ hr]; rfl
  | false =>
    cases ha : accepted params s.pins s.toBlock with
    | none => rw [step_of_none s hr ha, cycle_of_none _ _ _ hr ha]; rfl
    | some k => rw [step_of_some s k ha, cycle_of_some _ _ _ k ha]; rfl

/-! ### The hand-over of frames -/

/-- An accepted TXB leaves the TX registers as R82 writes them, whatever the engine did (R15). -/
theorem txRegisters_cycle_of_accepted_txb (c : Parameters) (p : Pins) (b : Block cw stages) (data : Byte)
    (ha : accepted c p b = some (.legal (.txb data))) :
    txRegisters (cycle c p b) = (false, true, 0, 0, data) := by
  rw [cycle_of_some c p b _ ha]
  rfl

/-- Settles O29: TX_LAST makes TXB ready (R111), and the accepted TXB writes last. -/
theorem txbInTheLastCycleStartsTheNextFrame : Obligations.TxbInTheLastCycleStartsTheNextFrame := by
  unfold Obligations.TxbInTheLastCycleStartsTheNextFrame
  intro c b p data hrst hvalid hcmd hlast
  have hready : ready c (.legal (.txb data)) b = true := by simp [ready, txbReady, hlast]
  exact txRegisters_cycle_of_accepted_txb c p b data
    ((accepted_eq_some c p b _).2 ⟨hrst, hvalid, hcmd, hready⟩)

/-! ### The counts and the budgets stay in their ranges (I-4 and I-6) -/

/-- What holds in reset and is kept by the engines, by any word's effect and by the synchroniser is kept by a cycle. -/
theorem cycle_preserves {Q : Block cw stages → Prop} (c : Parameters) (hreset : Q resetBlock)
    (hengines : ∀ e b, Q b → Q (engines c e b)) (hword : ∀ k b, Q b → Q (wordEffect c k b))
    (hlatch : ∀ e b, Q b → Q (latchEcho e b)) (p : Pins) (b : Block cw stages) (h : Q b) :
    Q (cycle c p b) := by
  cases hr : p.rst with
  | true => rwa [cycle_of_rst c p b hr]
  | false =>
    cases ha : accepted c p b with
    | none =>
      rw [cycle_of_none c p b hr ha]
      exact hlatch _ _ (hengines _ _ h)
    | some k =>
      rw [cycle_of_some c p b k ha]
      exact hlatch _ _ (hword _ _ (hengines _ _ h))

/-- TX_CNT + 1 does not wrap before the end of a bit period. -/
theorem txCnt_succ_toNat {c : Parameters} (hc : c.Legal) {x : BitVec 16} (hx : x.toNat ≤ c.bitCycles - 1)
    (hne : x.toNat ≠ c.bitCycles - 1) : (x + 1).toNat = x.toNat + 1 := by
  have hB := hc.bitCycles
  bv_omega

/-- The TX step keeps TX_CNT within its bit period (I-4). -/
theorem txStep_txCnt_le {c : Parameters} (hc : c.Legal) {b : Block cw stages}
    (h : b.txCnt.toNat ≤ c.bitCycles - 1) : (txStep c b).txCnt.toNat ≤ c.bitCycles - 1 := by
  rcases txStep_cases c b with ⟨-, heq⟩ | ⟨-, -, -, heq⟩ | ⟨-, -, -, heq⟩ | ⟨-, hne, heq⟩ <;> rw [heq]
  · exact h
  · exact Nat.zero_le _
  · exact Nat.zero_le _
  · have hsucc := txCnt_succ_toNat hc h hne
    simp only [hsucc]
    omega

/-- The trigger step keeps TRG_CNT below T during a pulse (I-4). -/
theorem trigStep_trgCnt_le {c : Parameters} {b : Block cw stages}
    (h : b.trigOut = true → b.trgCnt.toNat ≤ c.trigCycles - 1) :
    (trigStep b).trigOut = true → (trigStep b).trgCnt.toNat ≤ c.trigCycles - 1 := by
  rcases trigStep_cases b with ⟨-, heq⟩ | ⟨-, -, heq⟩ | ⟨hout, hne, heq⟩ <;> rw [heq]
  · exact h
  · exact fun hfalse => absurd hfalse Bool.false_ne_true
  · have hle := h hout
    intro _
    bv_omega

/-- The engines keep I-4. -/
theorem countsInRange_engines {c : Parameters} (hc : c.Legal) (e : Bool) (b : Block cw stages)
    (h : countsInRange c b) : countsInRange c (engines c e b) := by
  obtain ⟨htx, -, htrig⟩ := h
  have htx' := txStep_txCnt_le hc htx
  have htrig' := trigStep_trgCnt_le (c := c) (b := txStep c b) (by simpa using htrig)
  exact ⟨by simpa [engines] using htx', Fin.is_le _, by simpa [engines] using htrig'⟩

/-- Every word's effect keeps I-4: TXB and TRIG load their counts in range (R82, R92). -/
theorem countsInRange_wordEffect {c : Parameters} (hc : c.Legal) (k : Decoded) (b : Block cw stages)
    (h : countsInRange c b) : countsInRange c (wordEffect c k b) := by
  obtain ⟨htx, hidx, htrig⟩ := h
  rcases k with (_ | data | _ | _) | why
  case legal.txb => exact ⟨Nat.zero_le _, Nat.zero_le _, htrig⟩
  case legal.trig =>
    have hT := hc.trigCycles
    refine ⟨htx, hidx, fun _ => ?_⟩
    simp only [wordEffect, commandEffect, startPulse_trgCnt, BitVec.toNat_ofNat]
    exact Nat.mod_le _ _
  all_goals exact ⟨htx, hidx, htrig⟩

/-- I-4 is kept by every cycle, whatever the inputs. -/
theorem countsInRange_cycle {c : Parameters} (hc : c.Legal) (p : Pins) (b : Block cw stages)
    (h : countsInRange c b) : countsInRange c (cycle c p b) :=
  cycle_preserves c (by simp [countsInRange]) (countsInRange_engines hc) (countsInRange_wordEffect hc)
    (fun _ _ h => h) p b h

/-- The PT step keeps I-6: it spends a budget only where 1 is left after it. -/
theorem budgetsInRange_ptStep {c : Parameters} (hc : c.Legal) (e : Bool) (b : Block cw stages)
    (h : budgetsInRange c b) : budgetsInRange c (ptStep c e b) := by
  obtain ⟨hrise, hfall⟩ := h
  have hN := hc.fallBudget
  rcases ptStep_cases c e b with ⟨-, heq⟩ | ⟨-, -, heq⟩ | ⟨-, -, -, heq⟩ | ⟨hp, -, hne, heq⟩ | ⟨-, -, heq⟩
    | ⟨-, -, -, heq⟩ | ⟨hp, -, hne, heq⟩ <;> rw [heq]
  · exact ⟨hrise, hfall⟩
  · refine ⟨by simp, fun _ => ?_⟩
    rw [BitVec.toNat_ofNat]
    omega
  · exact ⟨by simp, by simp⟩
  · have hta := hrise hp
    refine ⟨fun _ => ?_, by simp [hp]⟩
    bv_omega
  · exact ⟨by simp, by simp⟩
  · exact ⟨by simp, by simp⟩
  · have htb := hfall hp
    refine ⟨by simp [hp], fun _ => ?_⟩
    bv_omega

/-- The engines keep I-6. -/
theorem budgetsInRange_engines {c : Parameters} (hc : c.Legal) (e : Bool) (b : Block cw stages)
    (h : budgetsInRange c b) : budgetsInRange c (engines c e b) :=
  budgetsInRange_ptStep hc e _ (by simpa [budgetsInRange] using h)

/-- Every word's effect keeps I-6: MEAS loads the whole budget (R97). -/
theorem budgetsInRange_wordEffect {c : Parameters} (hc : c.Legal) (k : Decoded) (b : Block cw stages)
    (h : budgetsInRange c b) : budgetsInRange c (wordEffect c k b) := by
  rcases k with (_ | data | _ | _) | why
  case legal.meas =>
    have hM := hc.riseBudget
    refine ⟨fun _ => ?_, by simp [wordEffect, commandEffect]⟩
    simp only [wordEffect, commandEffect, startMeasurement_ta, BitVec.toNat_ofNat]
    omega
  all_goals exact h

/-- I-6 is kept by every cycle, whatever the inputs. -/
theorem budgetsInRange_cycle {c : Parameters} (hc : c.Legal) (p : Pins) (b : Block cw stages)
    (h : budgetsInRange c b) : budgetsInRange c (cycle c p b) :=
  cycle_preserves c (by simp [budgetsInRange]) (budgetsInRange_engines hc) (budgetsInRange_wordEffect hc)
    (fun _ _ h => h) p b h

/-! ### How long an operation can still last (R152) -/

/-- The cycles of a frame that remain, the present one included (R84). -/
def txRemaining (c : Parameters) (b : Block cw stages) : Nat :=
  if b.txAct then (9 - b.txIdx.val) * c.bitCycles + (c.bitCycles - b.txCnt.toNat) else 0

/-- The cycles of a trigger pulse that remain, the present one included (R93). -/
def trigRemaining (b : Block cw stages) : Nat := if b.trigOut then b.trgCnt.toNat + 1 else 0

/-- The most cycles that a measurement can still take, the present one included (R103). -/
def ptRemaining (c : Parameters) (b : Block cw stages) : Nat :=
  match b.ptPhase with
  | .idle => 0
  | .rise => b.ta.toNat + c.fallBudget
  | .fall => b.tb.toNat

/-- The most cycles that the block can still be busy if no command is accepted. -/
def remaining (c : Parameters) (b : Block cw stages) : Nat :=
  max (txRemaining c b) (max (trigRemaining b) (ptRemaining c b))

/-- TX_IDX + 1 inside a frame. -/
theorem txIdx_succ_val {i : Fin 10} (h : i ≠ 9) : (i + 1).val = i.val + 1 :=
  Fin.val_add_one_of_lt' (by omega)

/-- Each TX step uses up one cycle of the frame. -/
theorem txRemaining_txStep {c : Parameters} (hc : c.Legal) {b : Block cw stages}
    (h : b.txCnt.toNat ≤ c.bitCycles - 1) : txRemaining c (txStep c b) = txRemaining c b - 1 := by
  have hB := hc.bitCycles
  rcases txStep_cases c b with ⟨hact, heq⟩ | ⟨hact, hcnt, hidx, heq⟩ | ⟨hact, hcnt, hidx, heq⟩
    | ⟨hact, hcnt, heq⟩ <;> rw [heq]
  · simp [txRemaining, hact]
  · have hlast : (9 : Fin 10).val = 9 := rfl
    simp only [txRemaining, hact, hcnt, hidx, hlast, if_true, Bool.false_eq_true, if_false]
    omega
  · have hlt : 9 - b.txIdx.val = 9 - (b.txIdx.val + 1) + 1 := by omega
    have hzero : (0 : BitVec 16).toNat = 0 := rfl
    simp only [txRemaining, hact, hcnt, txIdx_succ_val hidx, hzero, if_true]
    rw [hlt, Nat.succ_mul]
    omega
  · simp only [txRemaining, hact, if_true, txCnt_succ_toNat hc h hcnt]
    omega

/-- Each trigger step uses up one cycle of the pulse. -/
theorem trigRemaining_trigStep (b : Block cw stages) :
    trigRemaining (trigStep b) = trigRemaining b - 1 := by
  rcases trigStep_cases b with ⟨hout, heq⟩ | ⟨hout, hcnt, heq⟩ | ⟨hout, hcnt, heq⟩ <;> rw [heq]
  · simp [trigRemaining, hout]
  · simp [trigRemaining, hout, hcnt]
  · simp only [trigRemaining, hout, if_true]
    bv_omega

/-- Each PT step uses up at least one cycle of the measurement: an early rise shortens Phase A, and a fall ends it. -/
theorem ptRemaining_ptStep {c : Parameters} (hc : c.Legal) (e : Bool) {b : Block cw stages}
    (h : budgetsInRange c b) : ptRemaining c (ptStep c e b) ≤ ptRemaining c b - 1 := by
  obtain ⟨hrise, hfall⟩ := h
  have hN := hc.fallBudget
  rcases ptStep_cases c e b with ⟨hp, heq⟩ | ⟨hp, -, heq⟩ | ⟨-, -, -, heq⟩ | ⟨hp, -, hne, heq⟩ | ⟨-, -, heq⟩
    | ⟨-, -, -, heq⟩ | ⟨hp, -, hne, heq⟩ <;> rw [heq]
  · simp [ptRemaining, hp]
  · have hta := hrise hp
    simp only [ptRemaining, hp, BitVec.toNat_ofNat]
    omega
  · exact Nat.zero_le _
  · have hta := hrise hp
    simp only [ptRemaining, hp]
    bv_omega
  · exact Nat.zero_le _
  · exact Nat.zero_le _
  · have htb := hfall hp
    simp only [ptRemaining, countingStep_ptPhase, hp]
    bv_omega

/-- What remains of a frame is the TX step's alone to change (R90). -/
theorem txRemaining_engines (c : Parameters) (e e' : Bool) (b : Block cw stages) :
    txRemaining c (latchEcho e' (engines c e b)) = txRemaining c (txStep c b) := by
  simp [txRemaining, engines]

/-- What remains of a pulse is the trigger step's alone to change (R90). -/
theorem trigRemaining_engines (c : Parameters) (e e' : Bool) (b : Block cw stages) :
    trigRemaining (latchEcho e' (engines c e b)) = trigRemaining b - 1 := by
  rw [show trigRemaining b = trigRemaining (txStep c b) by simp [trigRemaining],
    ← trigRemaining_trigStep (txStep c b)]
  simp [trigRemaining, engines]

/-- What remains of a measurement goes down with the engines. -/
theorem ptRemaining_engines {c : Parameters} (hc : c.Legal) (e e' : Bool) {b : Block cw stages}
    (h : budgetsInRange c b) :
    ptRemaining c (latchEcho e' (engines c e b)) ≤ ptRemaining c b - 1 := by
  rw [show ptRemaining c b = ptRemaining c (trigStep (txStep c b)) by simp [ptRemaining]]
  exact ptRemaining_ptStep hc e (by simpa [budgetsInRange] using h)

/-- A cycle that accepts nothing brings the end of every operation nearer by one. -/
theorem remaining_cycle_of_none {c : Parameters} (hc : c.Legal) {p : Pins} {b : Block cw stages}
    (hcounts : countsInRange c b) (hbudgets : budgetsInRange c b) (hrst : p.rst = false)
    (ha : accepted c p b = none) : remaining c (cycle c p b) ≤ remaining c b - 1 := by
  have hpt := ptRemaining_engines hc (echoSample b.sync p.echoPin) p.echoPin hbudgets
  rw [cycle_of_none c p b hrst ha]
  unfold remaining
  rw [txRemaining_engines, txRemaining_txStep hc hcounts.1, trigRemaining_engines]
  omega

/-- In their ranges, the counts and budgets allow at most the bound of R152. -/
theorem remaining_le_busyBound {c : Parameters} (hc : c.Legal) {b : Block cw stages}
    (hcounts : countsInRange c b) (hbudgets : budgetsInRange c b) : remaining c b ≤ busyBound c := by
  obtain ⟨-, -, hcnt⟩ := hcounts
  obtain ⟨hrise, hfall⟩ := hbudgets
  have hT := hc.trigCycles
  have htx : txRemaining c b ≤ c.frameCycles := by
    have hmul := Nat.mul_le_mul_right c.bitCycles (Nat.sub_le 9 b.txIdx.val)
    unfold txRemaining Parameters.frameCycles
    split <;> omega
  have htrig : trigRemaining b ≤ c.trigCycles := by
    unfold trigRemaining
    split
    · have := hcnt ‹_›
      omega
    · exact Nat.zero_le _
  have hpt : ptRemaining c b ≤ c.riseBudget + c.fallBudget := by
    unfold ptRemaining
    cases hp : b.ptPhase with
    | idle => exact Nat.zero_le _
    | rise => exact Nat.add_le_add_right (hrise hp).2 _
    | fall => exact (hfall hp).2.trans (Nat.le_add_left _ _)
  unfold remaining busyBound
  omega

/-- A busy block has at least one cycle left. -/
theorem remaining_pos_of_busy {c : Parameters} (hc : c.Legal) {b : Block cw stages}
    (hcounts : countsInRange c b) (hbudgets : budgetsInRange c b) (hbusy : busy b = true) :
    0 < remaining c b := by
  have hB := hc.bitCycles
  obtain ⟨hcnt, -, -⟩ := hcounts
  obtain ⟨hrise, hfall⟩ := hbudgets
  simp only [busy, Bool.or_eq_true, bne_iff_ne] at hbusy
  obtain (hact | hout) | hphase := hbusy
  · have htx : 0 < txRemaining c b := by simp only [txRemaining, hact, if_true]; omega
    exact lt_max_of_lt_left htx
  · have htrig : 0 < trigRemaining b := by simp [trigRemaining, hout]
    exact lt_max_of_lt_right (lt_max_of_lt_left htrig)
  · have hpt : 0 < ptRemaining c b := by
      unfold ptRemaining
      cases hp : b.ptPhase with
      | idle => exact absurd hp hphase
      | rise => exact Nat.add_pos_left (hrise hp).1 _
      | fall => exact (hfall hp).1
    exact lt_max_of_lt_right (lt_max_of_lt_right hpt)

/-! ### A host program comes to its end (R18) -/

/-- The most cycles a host's run can still take: for each word one bound of waiting and one cycle of acceptance, and
the operation now in progress. -/
def workLeft (c : Parameters) (r : HostRun cw stages) : Nat :=
  r.words.length * (busyBound c + 1) + remaining c r.block

/-- The model's host drives no reset (log entry 15). -/
theorem hostPins_rst (words : List Word) (e : Bool) : (hostPins words e).rst = false := by
  cases words <;> rfl

/-- Only a busy block holds a word back (R111). -/
theorem busy_of_ready_eq_false {c : Parameters} {k : Decoded} {b : Block cw stages}
    (h : ready c k b = false) : busy b = true := by
  rcases k with (_ | data | _ | _) | why <;> simp_all [ready, txbReady]

/-- A word that is ready is struck off (R141). -/
theorem hostCycle_of_ready {c : Parameters} (e : Bool) {w : Word} (ws : List Word) {b : Block cw stages}
    (h : ready c (decode w) b = true) :
    hostCycle c e ⟨w :: ws, b⟩ = ⟨ws, cycle c (hostPins (w :: ws) e) b⟩ := by
  simp [hostCycle, cmdReady, hostPins, h]

/-- A word that is not ready is held (R141, log entry 15). -/
theorem hostCycle_of_not_ready {c : Parameters} (e : Bool) {w : Word} (ws : List Word) {b : Block cw stages}
    (h : ready c (decode w) b = false) :
    hostCycle c e ⟨w :: ws, b⟩ = ⟨w :: ws, cycle c (hostPins (w :: ws) e) b⟩ := by
  simp [hostCycle, cmdReady, hostPins, h]

/-- Each cycle of the host and the block takes something off the work left: an acceptance takes a word, and any other
cycle brings the operation in progress nearer to its end. -/
theorem workLeft_hostCycle {c : Parameters} (hc : c.Legal) (e : Bool) (words : List Word) {b : Block cw stages}
    (hcounts : countsInRange c b) (hbudgets : budgetsInRange c b) :
    workLeft c (hostCycle c e ⟨words, b⟩) ≤ workLeft c ⟨words, b⟩ - 1 := by
  have hrst := hostPins_rst words e
  cases words with
  | nil =>
    have hnone : accepted c (hostPins [] e) b = none := (accepted_eq_none _ _ _).2 (.inr (.inl rfl))
    have hrem := remaining_cycle_of_none hc hcounts hbudgets hrst hnone
    simpa [workLeft, hostCycle] using hrem
  | cons w ws =>
    cases hready : ready c (decode w) b with
    | true =>
      have hbound : remaining c (cycle c (hostPins (w :: ws) e) b) ≤ busyBound c :=
        remaining_le_busyBound hc (countsInRange_cycle hc _ b hcounts) (budgetsInRange_cycle hc _ b hbudgets)
      simp only [hostCycle_of_ready e ws hready, workLeft, List.length_cons, Nat.succ_mul]
      omega
    | false =>
      have hnone : accepted c (hostPins (w :: ws) e) b = none := (accepted_eq_none _ _ _).2 (.inr (.inr hready))
      have hrem := remaining_cycle_of_none hc hcounts hbudgets hrst hnone
      have hpos := remaining_pos_of_busy hc hcounts hbudgets (busy_of_ready_eq_false hready)
      simp only [hostCycle_of_not_ready e ws hready, workLeft]
      omega

/-- With no work left, no word is left and the block is quiescent. -/
theorem over_of_workLeft_eq_zero {c : Parameters} (hc : c.Legal) {r : HostRun cw stages}
    (hcounts : countsInRange c r.block) (hbudgets : budgetsInRange c r.block) (h : workLeft c r = 0) :
    r.over = true := by
  obtain ⟨hmul, hrem⟩ := Nat.add_eq_zero_iff.1 h
  have hwords : r.words = [] :=
    List.length_eq_zero_iff.1 ((Nat.mul_eq_zero.1 hmul).resolve_right (Nat.succ_ne_zero _))
  have hidle : busy r.block = false := by
    rw [← Bool.not_eq_true]
    exact fun hbusy => (remaining_pos_of_busy hc hcounts hbudgets hbusy).ne' hrem
  simp [HostRun.over, quiescent, hwords, hidle]

/-- A run that is given as many cycles as the work left is over at its end. -/
theorem over_hostRun_of_workLeft_le {c : Parameters} (hc : c.Legal) (echo : List Bool) (r : HostRun cw stages)
    (hcounts : countsInRange c r.block) (hbudgets : budgetsInRange c r.block)
    (h : workLeft c r ≤ echo.length) : (hostRun c echo r).over = true := by
  induction echo generalizing r with
  | nil => exact over_of_workLeft_eq_zero hc hcounts hbudgets (Nat.le_zero.1 h)
  | cons e es ih =>
    have hstep : workLeft c (hostCycle c e r) ≤ workLeft c r - 1 :=
      workLeft_hostCycle hc e r.words hcounts hbudgets
    refine ih (hostCycle c e r) (countsInRange_cycle hc _ _ hcounts) (budgetsInRange_cycle hc _ _ hbudgets) ?_
    rw [List.length_cons] at h
    omega

/-- Settles O47: the work left at the start is within the echo levels given, and each cycle takes one off. -/
theorem everyHostProgramComesToItsEnd : Obligations.EveryHostProgramComesToItsEnd := by
  unfold Obligations.EveryHostProgramComesToItsEnd
  rintro c hc b words echo ⟨-, -, -, hcounts, -, hbudgets, -⟩ hlen
  have hbound := remaining_le_busyBound hc hcounts hbudgets
  refine over_hostRun_of_workLeft_le hc echo _ hcounts hbudgets ?_
  rw [Nat.succ_mul] at hlen
  simp only [workLeft]
  omega

end Sys2Proof.Machine
end

section
/-! PROOFS. The family '10_state.md': the reset table (R52), the STATUS word (R47), ERR (R40), the echo synchroniser
(R41 and R42), what a cycle leaves of the PT registers (R39, R43), and the invariants I-1 to I-7 (R53). -/

namespace Sys2Proof.Machine

open Sys2Proof.Config

variable {cw stages : Nat}

/-! ### The signals BUSY and TX_LAST in terms of the registers -/

/-- BUSY = 0 (R46). -/
theorem busy_eq_false_iff (b : Block cw stages) :
    busy b = false ↔ b.txAct = false ∧ b.trigOut = false ∧ b.ptPhase = .idle := by
  simp [busy, and_assoc]

/-- BUSY = 1 (R46). -/
theorem busy_eq_true_iff (b : Block cw stages) :
    busy b = true ↔ b.txAct = true ∨ b.trigOut = true ∨ b.ptPhase ≠ .idle := by
  simp [busy, or_assoc]

/-- TX_LAST = 1 (R44). -/
theorem txLast_eq_true_iff (c : Parameters) (b : Block cw stages) :
    txLast c b = true ↔ b.txAct = true ∧ b.txIdx = 9 ∧ b.txCnt.toNat = c.bitCycles - 1 := by
  simp [txLast, and_assoc]

/-- TXB_READY = 1 (R47): the block is quiescent, or in the last cycle of a stop bit. -/
theorem txbReady_eq_true_iff (c : Parameters) (b : Block cw stages) :
    txbReady c b = true ↔
      (b.txAct = false ∧ b.trigOut = false ∧ b.ptPhase = .idle)
      ∨ (b.txAct = true ∧ b.txIdx = 9 ∧ b.txCnt.toNat = c.bitCycles - 1) := by
  rw [txbReady, Bool.or_eq_true, Bool.not_eq_true', busy_eq_false_iff, txLast_eq_true_iff]

/-! ### The STATUS word, bit by bit (R47) -/

/-- The bits of STATUS from bit 0 on; the bits above TXB_READY are 0. -/
theorem status_getLsbD (c : Parameters) (b : Block cw stages) (i : Nat) :
    (status c b).getLsbD i =
      ([busy b, b.txAct, b.trigOut, b.ptStat.code.getLsbD 0, b.ptStat.code.getLsbD 1, b.err,
        txbReady c b][i]?).getD false := by
  simp only [status, trigAct, BitVec.getLsbD_append]
  rcases i with _ | _ | _ | _ | _ | _ | _ | i <;> simp

/-- Bits 4:3 of STATUS are the code of PT_STAT (R48). -/
theorem status_extractLsb'_ptStat (c : Parameters) (b : Block cw stages) :
    (status c b).extractLsb' 3 2 = b.ptStat.code := by
  refine BitVec.eq_of_getLsbD_eq fun i hi => ?_
  rw [BitVec.getLsbD_extractLsb', status_getLsbD]
  obtain rfl | rfl : i = 0 ∨ i = 1 := by omega
  · rfl
  · rfl

/-- STATUS reads 0x0040 after reset (R47, R52), for every CW and S. -/
theorem status_resetBlock (c : Parameters) : status c (resetBlock : Block cw stages) = 0x0040#16 := by
  simp [status, txbReady, busy, trigAct, PtStat.code]

/-- Settles O22: the bits of STATUS, with BUSY and TXB_READY in terms of the registers. -/
theorem statusWordHasTheFieldsOfR47 : Obligations.StatusWordHasTheFieldsOfR47 := by
  unfold Obligations.StatusWordHasTheFieldsOfR47
  intro c b
  refine ⟨?busy, status_getLsbD c b 1, status_getLsbD c b 2, ?stat, status_getLsbD c b 5, ?ready, ?above,
    status_resetBlock c⟩
  case busy =>
    rw [status_getLsbD]
    exact busy_eq_true_iff b
  case stat =>
    rw [status_extractLsb'_ptStat]
    cases b.ptStat <;> rfl
  case ready =>
    rw [status_getLsbD]
    exact txbReady_eq_true_iff c b
  case above =>
    intro i hi
    rw [status_getLsbD, List.getElem?_eq_none hi, Option.getD_none]

/-! ### Reset and determinism -/

/-- Settles O1: the table is the definition of the reset state; the ports read it, and reset wins in a step. -/
theorem resetStateHoldsTheTableOfR52 : Obligations.ResetStateHoldsTheTableOfR52 := by
  unfold Obligations.ResetStateHoldsTheTableOfR52
  refine ⟨rfl, status_resetBlock params, fun p hrst => ?_, fun s p hrst => ?_⟩
  · simp [cmdReady, hrst]
  · exact ⟨_, step_of_rst (s.withPins p) hrst, rfl⟩

/-- Settles O13: by `stepIsTheCycleFunction`, the next registers are the cycle function of the registers and pins. -/
theorem nextRegistersDependOnRegistersAndPinsOnly :
    Obligations.NextRegistersDependOnRegistersAndPinsOnly := by
  unfold Obligations.NextRegistersDependOnRegistersAndPinsOnly
  intro s s' hblock hpins
  refine ⟨_, _, stepIsTheCycleFunction s, stepIsTheCycleFunction s', ?_⟩
  rw [hblock, hpins]

/-! ### ERR (R40) -/

@[simp] theorem engines_err (c : Parameters) (e : Bool) (b : Block cw stages) :
    (engines c e b).err = b.err := by
  simp [engines]

/-- No command writes ERR (R120). -/
@[simp] theorem commandEffect_err (c : Parameters) (i : Instr) (b : Block cw stages) :
    (commandEffect c i b).err = b.err := by
  cases i <;> rfl

/-- Settles O23, by the forms of a cycle: reset clears ERR, an accepted illegal word sets it, and nothing else
writes it. -/
theorem errIsSetByIllegalWordsAndClearedByResetOnly :
    Obligations.ErrIsSetByIllegalWordsAndClearedByResetOnly := by
  unfold Obligations.ErrIsSetByIllegalWordsAndClearedByResetOnly
  intro c p b
  cases hr : p.rst with
  | true => simp [cycle_of_rst c p b hr]
  | false =>
    cases ha : accepted c p b with
    | none => simp [cycle_of_none c p b hr ha]
    | some k =>
      rw [cycle_of_some c p b k ha]
      cases k with
      | legal i => simp [wordEffect]
      | illegal why => simp [wordEffect, illegalEffect]

/-! ### The echo synchroniser (R41, R42) -/

/-- One shift of the synchroniser: SYNC[1] takes the pin, every other stage the one before it (R41). -/
theorem getLsbD_syncShift (sync : BitVec stages) (e : Bool) {k : Nat} (hk : k < stages) :
    (syncShift sync e).getLsbD k = if k = 0 then e else sync.getLsbD (k - 1) := by
  simp [syncShift, BitVec.getLsbD_concat, hk]

/-- After a run without reset, SYNC[k + 1] holds the pin's level of the k-th last cycle, counted from 0 (R42). -/
theorem getElem?_reverse_eq_sync_runCycles (c : Parameters) (ps : List Pins) (b : Block cw stages)
    (hps : noReset ps) {k : Nat} (hk : k < stages) (hlen : k < ps.length) :
    (ps.reverse[k]?).map (·.echoPin) = some ((runCycles c ps b).sync.getLsbD k) := by
  induction ps using List.reverseRecOn generalizing k with
  | nil => exact absurd hlen (Nat.not_lt_zero k)
  | append_singleton ps p ih =>
    have hp : p.rst = false := hps p (by simp)
    have hinit : noReset ps := fun q hq => hps q (List.mem_append_left _ hq)
    rw [runCycles_append, runCycles_cons, runCycles_nil, cycle_sync c p _ hp, getLsbD_syncShift _ _ hk,
      List.reverse_concat]
    cases k with
    | zero => rfl
    | succ k =>
      rw [List.length_append, List.length_singleton] at hlen
      simpa using ih hinit (Nat.lt_of_succ_lt hk) (Nat.lt_of_succ_lt_succ hlen)

/-- Settles O37: with S = 0 the sample is the pin, and otherwise the last stage, which holds the level of S cycles
before. -/
theorem echoSampleIsThePinSCyclesEarlier : Obligations.EchoSampleIsThePinSCyclesEarlier := by
  unfold Obligations.EchoSampleIsThePinSCyclesEarlier
  intro c b ps q hps hlen
  by_cases hS : 1 ≤ c.syncStages
  · have hsync := getElem?_reverse_eq_sync_runCycles c ps b hps (k := c.syncStages - 1) (by omega) (by omega)
    rw [List.getElem?_reverse (by omega),
      show ps.length - 1 - (c.syncStages - 1) = ps.length - c.syncStages by omega] at hsync
    rw [echoSample, if_pos hS, List.getElem?_append_left (by omega), hsync]
  · have hzero : c.syncStages = 0 := by omega
    simp [echoSample, hzero]

/-! ### The PT registers in a cycle that accepts no MEAS -/

/-- The PT step reads and writes PT registers only (R90). -/
theorem ptRegisters_ptStep_congr (c : Parameters) (e : Bool) {b b' : Block cw stages}
    (h : ptRegisters b = ptRegisters b') : ptRegisters (ptStep c e b) = ptRegisters (ptStep c e b') := by
  have hregs := h
  simp only [ptRegisters, Prod.mk.injEq] at hregs
  obtain ⟨hphase, hstat, hta, htb, hcnt, hpsc, htov, hovf, hdur⟩ := hregs
  have hcount : ptRegisters (countingStep c b) = ptRegisters (countingStep c b') := by
    simp [ptRegisters, tick, wrap, hphase, hstat, hta, htb, hcnt, hpsc, htov, hovf, hdur]
  simp only [ptStep, ← hphase]
  cases b.ptPhase with
  | idle => exact h
  | rise =>
    simp only [riseStep, ← hta]
    split_ifs <;> simp [ptRegisters, raiseError, hphase, hstat, hta, htb, hcnt, hpsc, htov, hovf, hdur]
  | fall =>
    simp only [ptRegisters, Prod.mk.injEq] at hcount
    obtain ⟨hphase', hstat', hta', htb', hcnt', hpsc', htov', hovf', hdur'⟩ := hcount
    simp only [fallStep, fallOutcome, ← htb']
    split_ifs <;> simp only [ptRegisters, raiseError, extendedCount, hphase', hstat', hta', hcnt', hpsc', htov',
      hovf', hdur']

/-- No word but MEAS writes a PT register (R90). -/
theorem ptRegisters_wordEffect (c : Parameters) {k : Decoded} (b : Block cw stages)
    (hk : k ≠ .legal .meas) : ptRegisters (wordEffect c k b) = ptRegisters b := by
  rcases k with (_ | data | _ | _) | why
  case legal.meas => exact absurd rfl hk
  all_goals rfl

/-- In a cycle without reset that accepts no MEAS, the PT registers move by the PT step alone (R90, R115). -/
theorem ptRegisters_cycle (c : Parameters) (p : Pins) (b : Block cw stages) (hrst : p.rst = false)
    (hmeas : accepted c p b ≠ some (.legal .meas)) :
    ptRegisters (cycle c p b) = ptRegisters (ptStep c (echoSample b.sync p.echoPin) b) := by
  have hengines : ptRegisters (engines c (echoSample b.sync p.echoPin) b)
      = ptRegisters (ptStep c (echoSample b.sync p.echoPin) b) :=
    ptRegisters_ptStep_congr c _ (by simp [ptRegisters])
  cases ha : accepted c p b with
  | none => rw [cycle_of_none c p b hrst ha]; exact hengines
  | some k =>
    have hk : k ≠ .legal .meas := fun hk => hmeas (ha.trans (congrArg some hk))
    rw [cycle_of_some c p b k ha]
    exact (ptRegisters_wordEffect c _ hk).trans hengines

/-- Settles O42, by the cases of the PT step: DUR is written only where a measurement ends. -/
theorem durationStaysBetweenMeasurements : Obligations.DurationStaysBetweenMeasurements := by
  unfold Obligations.DurationStaysBetweenMeasurements
  intro c p b hrst hmeas
  have hpt := ptRegisters_cycle c p b hrst hmeas
  simp only [ptRegisters, Prod.mk.injEq] at hpt
  obtain ⟨hphase, hstat, -, -, -, -, -, -, hdur⟩ := hpt
  rw [hphase, hstat, hdur]
  rcases ptStep_cases c (echoSample b.sync p.echoPin) b with ⟨hp, heq⟩ | ⟨hp, -, heq⟩ | ⟨hp, -, -, heq⟩
    | ⟨hp, -, -, heq⟩ | ⟨hp, -, heq⟩ | ⟨hp, -, -, heq⟩ | ⟨hp, -, -, heq⟩ <;> simp [heq, hp]

/-- MEAS is accepted only where no measurement is in progress (R111). -/
theorem ptPhase_of_accepted_meas {c : Parameters} {p : Pins} {b : Block cw stages}
    (ha : accepted c p b = some (.legal .meas)) : b.ptPhase = .idle := by
  obtain ⟨-, -, -, hready⟩ := (accepted_eq_some c p b _).1 ha
  obtain ⟨-, -, hphase⟩ := (busy_eq_false_iff b).1 (by simpa [ready] using hready)
  exact hphase

/-- Settles O35: a MEAS is accepted only in IDLE, where the PT step writes nothing. In every other cycle the PT step
writes the counter only in Phase B or on entering it. -/
theorem counterStandsStillOutsidePhaseB : Obligations.CounterStandsStillOutsidePhaseB := by
  unfold Obligations.CounterStandsStillOutsidePhaseB
  intro c p b hrst hbefore hafter
  by_cases hmeas : accepted c p b = some (.legal .meas)
  · have hstep : ∀ e, ptStep c e (trigStep (txStep c b)) = trigStep (txStep c b) := fun e => by
      simp [ptStep, ptPhase_of_accepted_meas hmeas]
    rw [cycle_of_some c p b _ hmeas]
    simp [wordEffect, commandEffect, engines, hstep]
  · have hpt := ptRegisters_cycle c p b hrst hmeas
    simp only [ptRegisters, Prod.mk.injEq] at hpt
    obtain ⟨hphase, -, -, -, hcnt, hpsc, htov, -, -⟩ := hpt
    rw [hphase] at hafter
    rw [hcnt, hpsc, htov]
    rcases ptStep_cases c (echoSample b.sync p.echoPin) b with ⟨-, heq⟩ | ⟨-, -, heq⟩ | ⟨-, -, -, heq⟩
      | ⟨-, -, -, heq⟩ | ⟨hp, -, -⟩ | ⟨hp, -, -, -⟩ | ⟨hp, -, -, -⟩
    · simp [heq]
    · exact absurd (by rw [heq]) hafter
    · simp [heq]
    · simp [heq]
    all_goals exact absurd hp hbefore

/-! ### The invariants I-1 to I-7 (R53)

I-4 and I-6 are `countsInRange_cycle` and `budgetsInRange_cycle` above. The other five follow here, each along the
parts of a cycle. -/

/-- The PT step keeps I-1. -/
theorem statusTracksPhase_ptStep (c : Parameters) (e : Bool) (b : Block cw stages)
    (h : statusTracksPhase b) : statusTracksPhase (ptStep c e b) := by
  rcases ptStep_cases c e b with ⟨-, heq⟩ | ⟨hp, -, heq⟩ | ⟨-, -, -, heq⟩ | ⟨-, -, -, heq⟩ | ⟨-, -, heq⟩
    | ⟨-, -, -, heq⟩ | ⟨-, -, -, heq⟩ <;> rw [heq]
  · exact h
  · simpa [statusTracksPhase, hp] using h
  · simp [statusTracksPhase]
  · exact h
  · simp [statusTracksPhase]
  · simp [statusTracksPhase]
  · exact h

/-- I-1 is kept by every cycle. -/
theorem statusTracksPhase_cycle (c : Parameters) (p : Pins) (b : Block cw stages)
    (h : statusTracksPhase b) : statusTracksPhase (cycle c p b) := by
  refine cycle_preserves c (by simp [statusTracksPhase]) (fun e b h => ?_) (fun k b h => ?_) (fun _ _ h => h) p b h
  · exact statusTracksPhase_ptStep c e _ (by simpa [statusTracksPhase] using h)
  · rcases k with (_ | data | _ | _) | why
    case legal.meas => simp [statusTracksPhase, wordEffect, commandEffect]
    all_goals exact h

/-- I-2 as the list of what is not in progress. -/
theorem oneOperation_iff (b : Block cw stages) :
    oneOperation b ↔ (b.txAct = false ∨ b.trigOut = false) ∧ (b.txAct = false ∨ b.ptPhase = .idle)
      ∧ (b.trigOut = false ∨ b.ptPhase = .idle) := by
  simp only [oneOperation, not_and_or, Bool.not_eq_true, not_not]

/-- The engines start no frame. -/
theorem txAct_engines_eq_false (c : Parameters) (e : Bool) {b : Block cw stages} (h : b.txAct = false) :
    (engines c e b).txAct = false := by
  simp [engines, txStep, h]

/-- The engines start no trigger pulse. -/
theorem trigOut_engines_eq_false (c : Parameters) (e : Bool) {b : Block cw stages} (h : b.trigOut = false) :
    (engines c e b).trigOut = false := by
  simp [engines, trigStep, h]

/-- The engines start no measurement. -/
theorem ptPhase_engines_eq_idle (c : Parameters) (e : Bool) {b : Block cw stages} (h : b.ptPhase = .idle) :
    (engines c e b).ptPhase = .idle := by
  simp [engines, ptStep, h]

/-- The engines keep I-2: they start no operation. -/
theorem oneOperation_engines (c : Parameters) (e : Bool) (b : Block cw stages) (h : oneOperation b) :
    oneOperation (engines c e b) := by
  obtain ⟨htxtrig, htxpt, htrigpt⟩ := (oneOperation_iff b).1 h
  have htx : b.txAct = false → (engines c e b).txAct = false := txAct_engines_eq_false c e
  have htrig : b.trigOut = false → (engines c e b).trigOut = false := trigOut_engines_eq_false c e
  have hpt : b.ptPhase = .idle → (engines c e b).ptPhase = .idle := ptPhase_engines_eq_idle c e
  exact (oneOperation_iff _).2 ⟨htxtrig.imp htx htrig, htxpt.imp htx hpt, htrigpt.imp htrig hpt⟩

/-- The words that start no operation keep I-2 in any registers, and the three that start one keep it where neither
of the other two operations is in progress. -/
theorem oneOperation_wordEffect (c : Parameters) {k : Decoded} {b : Block cw stages} (h : oneOperation b)
    (htxb : ∀ data, k = .legal (.txb data) → b.trigOut = false ∧ b.ptPhase = .idle)
    (htrig : k = .legal .trig → b.txAct = false ∧ b.ptPhase = .idle)
    (hmeas : k = .legal .meas → b.txAct = false ∧ b.trigOut = false) :
    oneOperation (wordEffect c k b) := by
  rcases k with (_ | data | _ | _) | why
  case legal.txb => simp [oneOperation, wordEffect, commandEffect, htxb data rfl]
  case legal.trig => simp [oneOperation, wordEffect, commandEffect, htrig rfl]
  case legal.meas => simp [oneOperation, wordEffect, commandEffect, hmeas rfl]
  all_goals exact h

/-- Where TXB is ready, no pulse and no measurement is in progress (R111, I-2). -/
theorem idle_of_txbReady {c : Parameters} {b : Block cw stages} (h : oneOperation b)
    (hready : txbReady c b = true) : b.trigOut = false ∧ b.ptPhase = .idle := by
  rcases (txbReady_eq_true_iff c b).1 hready with ⟨-, htrig, hpt⟩ | ⟨htx, -, -⟩
  · exact ⟨htrig, hpt⟩
  · obtain ⟨htxtrig, htxpt, -⟩ := (oneOperation_iff b).1 h
    simpa [htx] using And.intro htxtrig htxpt

/-- I-2 is kept by every cycle: an operation is accepted only where no other is in progress, or a TXB where the frame in
progress ends (R111). -/
theorem oneOperation_cycle (c : Parameters) (p : Pins) (b : Block cw stages) (h : oneOperation b) :
    oneOperation (cycle c p b) := by
  cases hr : p.rst with
  | true => simp [cycle_of_rst c p b hr, oneOperation]
  | false =>
    have hmoved := oneOperation_engines c (echoSample b.sync p.echoPin) b h
    cases ha : accepted c p b with
    | none =>
      rw [cycle_of_none c p b hr ha]
      exact hmoved
    | some k =>
      obtain ⟨-, -, -, hready⟩ := (accepted_eq_some c p b k).1 ha
      rw [cycle_of_some c p b k ha]
      refine oneOperation_wordEffect c hmoved ?txb ?trig ?meas
      case txb =>
        rintro data rfl
        exact (idle_of_txbReady h hready).imp (trigOut_engines_eq_false c _) (ptPhase_engines_eq_idle c _)
      case trig =>
        rintro rfl
        obtain ⟨htx, -, hpt⟩ := (busy_eq_false_iff b).1 (by simpa [ready] using hready)
        exact ⟨txAct_engines_eq_false c _ htx, ptPhase_engines_eq_idle c _ hpt⟩
      case meas =>
        rintro rfl
        obtain ⟨htx, htrig, -⟩ := (busy_eq_false_iff b).1 (by simpa [ready] using hready)
        exact ⟨txAct_engines_eq_false c _ htx, trigOut_engines_eq_false c _ htrig⟩

/-- I-3 in the terms of `Block.HoldsSteps`: in FALL the counter holds N − TB steps. -/
theorem counterExact_iff (c : Parameters) (b : Block cw stages) :
    counterExact c b ↔ (b.ptPhase = .fall → b.HoldsSteps c (c.fallBudget - b.tb.toNat)) := Iff.rfl

/-- The PT step keeps I-3: a rise clears the counter and loads TB with N, and a step that stays in FALL counts once and
takes one from TB. -/
theorem counterExact_ptStep {c : Parameters} (hc : c.Legal) (hcw : 1 ≤ cw ∧ cw ≤ 32) (e : Bool)
    (b : Block cw stages) (hbudgets : budgetsInRange c b) (h : counterExact c b) :
    counterExact c (ptStep c e b) := by
  have hN := hc.fallBudget
  rw [counterExact_iff] at h ⊢
  rcases ptStep_cases c e b with ⟨-, heq⟩ | ⟨-, -, heq⟩ | ⟨-, -, -, heq⟩ | ⟨hp, -, -, heq⟩ | ⟨-, -, heq⟩
    | ⟨-, -, -, heq⟩ | ⟨hp, -, hne, heq⟩ <;> rw [heq] <;> intro hfall
  · exact h hfall
  · have htb : c.fallBudget - (BitVec.ofNat 32 c.fallBudget).toNat = 0 := by
      rw [BitVec.toNat_ofNat]
      omega
    simp only [htb]
    simp [Block.HoldsSteps]
  · cases hfall
  · exact absurd (hp.symm.trans hfall) (by decide)
  · cases hfall
  · cases hfall
  · obtain ⟨hpos, hle⟩ := hbudgets.2 hp
    have htb : c.fallBudget - (b.tb - 1).toNat = c.fallBudget - b.tb.toNat + 1 := by bv_omega
    have hcount := holdsSteps_countingStep c hc.prescale hcw b _ (by omega) (h hp)
    simp only [htb]
    exact hcount

/-- I-3 is kept by every cycle that begins with the budgets in their ranges (I-6). -/
theorem counterExact_cycle {c : Parameters} (hc : c.Legal) (hcw : 1 ≤ cw ∧ cw ≤ 32) (p : Pins)
    (b : Block cw stages) (hbudgets : budgetsInRange c b) (h : counterExact c b) :
    counterExact c (cycle c p b) := by
  have hboth : budgetsInRange c (cycle c p b) ∧ counterExact c (cycle c p b) := by
    refine cycle_preserves (Q := fun b => budgetsInRange c b ∧ counterExact c b) c
      (by simp [budgetsInRange, counterExact])
      (fun e b h => ⟨budgetsInRange_engines hc e b h.1, ?_⟩)
      (fun k b h => ⟨budgetsInRange_wordEffect hc k b h.1, ?_⟩) (fun _ _ h => h) p b ⟨hbudgets, h⟩
    · obtain ⟨hbudgets, hcounter⟩ := h
      exact counterExact_ptStep hc hcw e _ (by simpa [budgetsInRange] using hbudgets)
        (by simpa [counterExact] using hcounter)
    · rcases k with (_ | data | _ | _) | why
      case legal.meas => simp [counterExact, wordEffect, commandEffect]
      all_goals exact h.2
  exact hboth.2

/-- The TX step keeps I-5. -/
theorem lineFollowsFrame_txStep (c : Parameters) (b : Block cw stages) (h : lineFollowsFrame b) :
    lineFollowsFrame (txStep c b) := by
  rcases txStep_cases c b with ⟨-, heq⟩ | ⟨-, -, -, heq⟩ | ⟨hact, -, -, heq⟩ | ⟨-, -, heq⟩ <;> rw [heq]
  · exact h
  · simp [lineFollowsFrame]
  · simp [lineFollowsFrame, hact]
  · exact h

/-- I-5 is kept by every cycle. -/
theorem lineFollowsFrame_cycle (c : Parameters) (p : Pins) (b : Block cw stages)
    (h : lineFollowsFrame b) : lineFollowsFrame (cycle c p b) := by
  refine cycle_preserves c (by simp [lineFollowsFrame]) (fun e b h => ?_) (fun k b h => ?_) (fun _ _ h => h) p b h
  · simpa [lineFollowsFrame, engines] using lineFollowsFrame_txStep c b h
  · rcases k with (_ | data | _ | _) | why
    case legal.txb => simp [lineFollowsFrame, wordEffect, commandEffect, frameLevel]
    all_goals exact h

/-- The PT step keeps I-7. -/
theorem resultZeroUnlessOk_ptStep (c : Parameters) (e : Bool) (b : Block cw stages)
    (h : resultZeroUnlessOk b) : resultZeroUnlessOk (ptStep c e b) := by
  rcases ptStep_cases c e b with ⟨-, heq⟩ | ⟨-, -, heq⟩ | ⟨-, -, -, heq⟩ | ⟨-, -, -, heq⟩ | ⟨-, -, heq⟩
    | ⟨-, -, -, heq⟩ | ⟨-, -, -, heq⟩ <;> rw [heq]
  · exact h
  · exact h
  · exact fun _ => rfl
  · exact h
  · simp
  · exact fun _ => rfl
  · exact h

/-- I-7 is kept by every cycle. -/
theorem resultZeroUnlessOk_cycle (c : Parameters) (p : Pins) (b : Block cw stages)
    (h : resultZeroUnlessOk b) : resultZeroUnlessOk (cycle c p b) := by
  refine cycle_preserves c (by simp) (fun e b h => ?_) (fun k b h => ?_) (fun _ _ h => h) p b h
  · exact resultZeroUnlessOk_ptStep c e _ (by simpa [resultZeroUnlessOk] using h)
  · rcases k with (_ | data | _ | _) | why
    case legal.meas => exact fun _ => rfl
    all_goals exact h

/-- Reset meets the invariants, for every CW and S. -/
theorem blockInv_resetBlock (c : Parameters) : BlockInv c (resetBlock : Block cw stages) := by
  simp [BlockInv, statusTracksPhase, oneOperation, counterExact, countsInRange, lineFollowsFrame, budgetsInRange,
    resultZeroUnlessOk]

/-- The invariants of R53 are kept by every cycle, whatever the inputs. -/
theorem blockInv_cycle {c : Parameters} (hc : c.Legal) (hcw : 1 ≤ cw ∧ cw ≤ 32) (p : Pins)
    (b : Block cw stages) (h : BlockInv c b) : BlockInv c (cycle c p b) := by
  obtain ⟨hstat, hone, hcounter, hcounts, hline, hbudgets, hresult⟩ := h
  exact ⟨statusTracksPhase_cycle c p b hstat, oneOperation_cycle c p b hone,
    counterExact_cycle hc hcw p b hbudgets hcounter, countsInRange_cycle hc p b hcounts,
    lineFollowsFrame_cycle c p b hline, budgetsInRange_cycle hc p b hbudgets,
    resultZeroUnlessOk_cycle c p b hresult⟩

/-- Settles O51: reset, and the seven invariants along one cycle. -/
theorem everyCycleOfEveryBuildKeepsTheInvariants : Obligations.EveryCycleOfEveryBuildKeepsTheInvariants := by
  unfold Obligations.EveryCycleOfEveryBuildKeepsTheInvariants
  intro c hc
  have hcw := hc.counterWidth
  exact ⟨blockInv_resetBlock c, blockInv_cycle hc (by omega)⟩

/-- Settles O44: a step is the cycle function at this hardware's parameters (`stepIsTheCycleFunction`). -/
theorem everyStepKeepsTheInvariants : Obligations.EveryStepKeepsTheInvariants := by
  unfold Obligations.EveryStepKeepsTheInvariants
  intro s t hs hstep
  rw [stepIsTheCycleFunction s] at hstep
  cases hstep
  exact blockInv_cycle params_legal (by decide) s.pins s.toBlock hs

/-- A run over any inputs keeps the invariants. -/
theorem blockInv_runCycles {c : Parameters} (hc : c.Legal) (hcw : 1 ≤ cw ∧ cw ≤ 32) (ps : List Pins)
    (b : Block cw stages) (h : BlockInv c b) : BlockInv c (runCycles c ps b) := by
  induction ps generalizing b with
  | nil => exact h
  | cons p ps ih => exact ih _ (blockInv_cycle hc hcw p b h)

/-- Settles O45: the run starts in the reset state, which meets the invariants. -/
theorem invariantsHoldInEveryBuildUnderAnyInputs : Obligations.InvariantsHoldInEveryBuildUnderAnyInputs := by
  unfold Obligations.InvariantsHoldInEveryBuildUnderAnyInputs
  intro c hc ps
  have hcw := hc.counterWidth
  exact blockInv_runCycles hc (by omega) ps _ (blockInv_resetBlock c)

/-- Settles O43: the reset state of the generic block, at this hardware's parameters. -/
theorem resetStateMeetsTheInvariants : Obligations.ResetStateMeetsTheInvariants :=
  blockInv_resetBlock params

end Sys2Proof.Machine
end

section
/-! PROOFS. The family '30_encoding.md': a word as its three fields (R71), decode and encode as inverses (R74, R77), the
legal and the illegal words (R75, R76), and the assembler's words (R77, R78). -/

namespace Sys2Proof

/-! ### The three fields of a word (R71), and those of a command's word (R77) -/

/-- OP, RSV and IMM8 as digits of the word's number. -/
theorem opField_toNat (w : Word) : (opField w).toNat = w.toNat / 4096 := by
  have hw := w.isLt
  simp only [opField, BitVec.extractLsb'_toNat, Nat.shiftRight_eq_div_pow]
  omega

theorem rsvField_toNat (w : Word) : (rsvField w).toNat = w.toNat / 256 % 16 := by
  simp [rsvField, Nat.shiftRight_eq_div_pow]

theorem immField_toNat (w : Word) : (immField w).toNat = w.toNat % 256 := by
  simp [immField]

/-- A word is determined by its three fields. -/
theorem word_eq_of_fields {v w : Word} (hop : opField v = opField w) (hrsv : rsvField v = rsvField w)
    (himm : immField v = immField w) : v = w := by
  have hop := congrArg BitVec.toNat hop
  have hrsv := congrArg BitVec.toNat hrsv
  have himm := congrArg BitVec.toNat himm
  rw [opField_toNat, opField_toNat] at hop
  rw [rsvField_toNat, rsvField_toNat] at hrsv
  rw [immField_toNat, immField_toNat] at himm
  exact BitVec.eq_of_toNat_eq (by omega)

/-- The number that R75 gives each command in OP. -/
def Instr.opcode : Instr → BitVec 4
  | .nop => 0x0#4
  | .txb _ => 0x1#4
  | .trig => 0x2#4
  | .meas => 0x3#4

/-- IMM8 of each command's word: the operand of TXB, and 0 for the commands without an operand (R73). -/
def Instr.operand : Instr → Byte
  | .nop => 0#8
  | .txb imm8 => imm8
  | .trig => 0#8
  | .meas => 0#8

/-- A command's word has its opcode as upper byte (with RSV = 0) and its operand as lower byte. -/
theorem encode_toNat (i : Instr) : (encode i).toNat = 4096 * i.opcode.toNat + i.operand.toNat := by
  cases i with
  | txb imm8 =>
    have himm := imm8.isLt
    have hor : 4096 + imm8.toNat = 4096 ||| imm8.toNat :=
      Nat.two_pow_add_eq_or_of_lt (i := 12) (by omega) 1
    have hwide : (imm8.setWidth 16).toNat = imm8.toNat := BitVec.toNat_setWidth_of_le (by decide)
    simp only [encode, Instr.opcode, Instr.operand, BitVec.toNat_or, hwide]
    exact hor.symm
  | nop | trig | meas => rfl

theorem opField_encode (i : Instr) : opField (encode i) = i.opcode := by
  have hoperand := i.operand.isLt
  refine BitVec.eq_of_toNat_eq ?_
  rw [opField_toNat, encode_toNat]
  omega

theorem rsvField_encode (i : Instr) : rsvField (encode i) = 0 := by
  have hoperand := i.operand.isLt
  refine BitVec.eq_of_toNat_eq ?_
  have hzero : (0 : BitVec 4).toNat = 0 := rfl
  rw [rsvField_toNat, encode_toNat, hzero]
  omega

theorem immField_encode (i : Instr) : immField (encode i) = i.operand := by
  have hoperand := i.operand.isLt
  refine BitVec.eq_of_toNat_eq ?_
  rw [immField_toNat, encode_toNat]
  omega

/-- A word is a command's exactly when its fields are the command's. -/
theorem encode_eq_iff_fields (i : Instr) (w : Word) :
    encode i = w ↔ opField w = i.opcode ∧ rsvField w = 0 ∧ immField w = i.operand := by
  constructor
  · rintro rfl
    exact ⟨opField_encode i, rsvField_encode i, immField_encode i⟩
  · rintro ⟨hop, hrsv, himm⟩
    exact word_eq_of_fields (by rw [opField_encode, hop]) (by rw [rsvField_encode, hrsv])
      (by rw [immField_encode, himm])

/-! ### Decode and encode are inverses (R74) -/

/-- A row without operand reads its command from the word with RSV = 0 and IMM8 = 0 only. -/
theorem encode_of_decodePlain {j i : Instr} {w : Word} (hop : opField w = j.opcode) (hj : j.operand = 0)
    (h : decodePlain j w = .legal i) : encode i = w := by
  unfold decodePlain at h
  split_ifs at h with hrsv himm
  cases h
  exact (encode_eq_iff_fields j w).2 ⟨hop, not_not.1 hrsv, hj ▸ not_not.1 himm⟩

theorem decode_encode (i : Instr) : decode (encode i) = .legal i := by
  simp only [decode, decodePlain, opField_encode, rsvField_encode, immField_encode]
  cases i <;> rfl

/-- What decode reads as a command is that command's word: OP names the row, and the row fixes the other fields. -/
theorem encode_of_decode {w : Word} {i : Instr} (h : decode w = .legal i) : encode i = w := by
  unfold decode at h
  split_ifs at h with hnop htxb hrsv htrig hmeas
  · exact encode_of_decodePlain (j := .nop) hnop rfl h
  · cases h
    exact (encode_eq_iff_fields _ w).2 ⟨htxb, not_not.1 hrsv, rfl⟩
  · exact encode_of_decodePlain (j := .trig) htrig rfl h
  · exact encode_of_decodePlain (j := .meas) hmeas rfl h

/-- Decode and encode are inverses: a word decodes to a command exactly when it is the command's word. -/
theorem decode_eq_legal_iff (w : Word) (i : Instr) : decode w = .legal i ↔ encode i = w :=
  ⟨encode_of_decode, fun h => h ▸ decode_encode i⟩

/-- The table's reader takes the 16 bits of a word as the word. -/
theorem decodeTableWord_of_decode {w : Word} {i : Instr} (h : decode w = .legal i) :
    decodeTableWord 16 w.toNat = some i := by
  have hmod : w.toNat % 2 ^ 16 = w.toNat := Nat.mod_eq_of_lt w.isLt
  have hword : commandWord 16 w.toNat = w := by rw [commandWord, hmod, BitVec.ofNat_toNat, BitVec.setWidth_eq]
  rw [decodeTableWord, hmod, if_pos w.isLt, hword, h]

/-- Settles O7: the operand's range is in its type, so well-formedness asks for nothing more. -/
theorem decodeOfEncodeIsTheCommand : Obligations.DecodeOfEncodeIsTheCommand := by
  unfold Obligations.DecodeOfEncodeIsTheCommand
  exact fun i _ => ⟨decode_encode i, decodeTableWord_of_decode (decode_encode i)⟩

/-- Settles O8: `encode_of_decode`, so decode is injective on the legal words. -/
theorem encodeOfDecodeIsTheWord : Obligations.EncodeOfDecodeIsTheWord := by
  unfold Obligations.EncodeOfDecodeIsTheWord
  exact fun _ _ => encode_of_decode

/-- Settles O3: the four written-out words are their commands' words, and the others are no command's. -/
theorem writtenOutWordsDecode : Obligations.WrittenOutWordsDecode := by
  unfold Obligations.WrittenOutWordsDecode
  exact ⟨decode_encode .nop, decode_encode (.txb 0x41#8), decode_encode .trig, decode_encode .meas,
    ⟨_, rfl⟩, ⟨_, rfl⟩, ⟨_, rfl⟩⟩

/-! ### The legal words and the illegal ones (R74 to R76) -/

/-- A word is illegal exactly when it decodes to no command. -/
theorem decode_eq_illegal_iff (w : Word) :
    (∃ why, decode w = .illegal why) ↔ ∀ i, decode w ≠ .legal i := by
  cases decode w <;> simp

/-- A word is a command's exactly when its number is the command's. -/
theorem decode_eq_legal_iff_toNat (w : Word) (i : Instr) :
    decode w = .legal i ↔ w.toNat = 4096 * i.opcode.toNat + i.operand.toNat := by
  rw [decode_eq_legal_iff, ← BitVec.toNat_inj, encode_toNat, eq_comm]

/-- TXB's words are the 256 numbers from 0x1000 on. -/
theorem decode_ne_txb_iff (w : Word) :
    (∀ d, decode w ≠ .legal (.txb d)) ↔ w.toNat < 0x1000 ∨ 0x10FF < w.toNat := by
  simp only [ne_eq, decode_eq_legal_iff_toNat, Instr.opcode, Instr.operand, BitVec.toNat_ofNat]
  constructor
  · intro h
    have himm := h (immField w)
    rw [immField_toNat] at himm
    omega
  · intro h d
    have hd := d.isLt
    omega

theorem Instr.forall_iff {Q : Instr → Prop} :
    (∀ i, Q i) ↔ Q .nop ∧ (∀ d, Q (.txb d)) ∧ Q .trig ∧ Q .meas := by
  constructor
  · exact fun h => ⟨h .nop, fun d => h (.txb d), h .trig, h .meas⟩
  · rintro ⟨hnop, htxb, htrig, hmeas⟩ i
    cases i with
    | nop => exact hnop
    | txb d => exact htxb d
    | trig => exact htrig
    | meas => exact hmeas

/-- Settles O4: the numbers of the four commands, and for the illegal words what is left beside them. -/
theorem decodeReadsTheOpcodeMap : Obligations.DecodeReadsTheOpcodeMap := by
  unfold Obligations.DecodeReadsTheOpcodeMap
  intro w
  have hnop := decode_eq_legal_iff_toNat w .nop
  have htrig := decode_eq_legal_iff_toNat w .trig
  have hmeas := decode_eq_legal_iff_toNat w .meas
  refine ⟨hnop, fun d => decode_eq_legal_iff_toNat w (.txb d), htrig, hmeas, ?_⟩
  rw [decode_eq_illegal_iff, Instr.forall_iff]
  exact and_congr (not_congr hnop) (and_congr (decode_ne_txb_iff w) (and_congr (not_congr htrig) (not_congr hmeas)))

/-- Each command's word lies in its row (the family WordOfRow). -/
theorem row_covers_encode (i : Instr) : i.row ∈ opcodeRows ∧ i.row.covers (encode i) = true := by
  have h : Laws.WordOfRow.Statement i := by
    cases i with
    | nop => exact Laws.WordOfRow.nop
    | txb imm8 => exact Laws.WordOfRow.txb imm8
    | trig => exact Laws.WordOfRow.trig
    | meas => exact Laws.WordOfRow.meas
  exact ⟨h.1, h.2.1⟩

/-- A row whose mask takes every bit covers its pattern only. -/
theorem covers_of_fullMask {name : String} {p w : Word}
    (h : (OpcodeRow.mk name p 0xFFFF#16).covers w = true) : p = w := by
  have hmask : w &&& 0xFFFF#16 = w := BitVec.and_allOnes
  exact (eq_of_beq h).symm.trans hmask

/-- TXB's row fixes OP and RSV, and leaves IMM8 to the operand. -/
theorem encode_of_txbRow {name : String} {w : Word}
    (h : (OpcodeRow.mk name 0x1000#16 0xFF00#16).covers w = true) : encode (.txb (immField w)) = w := by
  have h : w &&& 0xFF00#16 = 0x1000#16 := eq_of_beq h
  have hop : opField w = opField 0x1000#16 := by
    rw [← h, opField, opField, BitVec.extractLsb'_and]
    exact BitVec.and_allOnes.symm
  have hrsv : rsvField w = rsvField 0x1000#16 := by
    rw [← h, rsvField, rsvField, BitVec.extractLsb'_and]
    exact BitVec.and_allOnes.symm
  exact (encode_eq_iff_fields _ w).2 ⟨hop, hrsv, rfl⟩

/-- The rows of R75 cover the words of the commands, and no others. -/
theorem exists_row_covers_iff (w : Word) :
    (∃ r ∈ opcodeRows, r.covers w = true) ↔ ∃ i, encode i = w := by
  constructor
  · rintro ⟨r, hr, hcovers⟩
    simp only [opcodeRows, List.mem_cons, List.not_mem_nil, or_false] at hr
    obtain rfl | rfl | rfl | rfl := hr
    · exact ⟨.nop, covers_of_fullMask hcovers⟩
    · exact ⟨.txb (immField w), encode_of_txbRow hcovers⟩
    · exact ⟨.trig, covers_of_fullMask hcovers⟩
    · exact ⟨.meas, covers_of_fullMask hcovers⟩
  · rintro ⟨i, rfl⟩
    exact ⟨i.row, row_covers_encode i⟩

/-- Settles O5: the words that are no command's are those that no row covers. -/
theorem illegalWordsAreThoseOfNoRow : Obligations.IllegalWordsAreThoseOfNoRow := by
  unfold Obligations.IllegalWordsAreThoseOfNoRow
  intro w
  have hrows := not_congr (exists_row_covers_iff w)
  simpa [decode_eq_illegal_iff, decode_eq_legal_iff] using hrows.symm

/-- The commands, each once. -/
def Instr.all : List Instr :=
  .nop :: .trig :: .meas :: (List.finRange 256).map fun k => .txb (BitVec.ofFin k)

theorem Instr.length_all : Instr.all.length = 259 := by
  simp [Instr.all]

theorem Instr.mem_all (i : Instr) : i ∈ Instr.all := by
  cases i <;> simp [Instr.all]

theorem Instr.nodup_all : Instr.all.Nodup := by
  have hinj : Function.Injective fun k : Fin 256 => Instr.txb (BitVec.ofFin k) := by
    intro j k h
    cases h
    rfl
  simp [Instr.all, (List.nodup_finRange 256).map hinj]

theorem encode_injective : Function.Injective encode := by
  intro i j h
  have hdecode := decode_encode i
  rw [h, decode_encode] at hdecode
  cases hdecode
  rfl

/-- Settles O6: the words of the 259 commands, which differ because decode tells them apart. -/
theorem exactlyTwoHundredFiftyNineLegalWords : Obligations.ExactlyTwoHundredFiftyNineLegalWords := by
  unfold Obligations.ExactlyTwoHundredFiftyNineLegalWords
  refine ⟨Instr.all.map encode, Instr.nodup_all.map encode_injective, ?_, fun w => ?_⟩
  · rw [List.length_map, Instr.length_all]
  · simp [decode_eq_legal_iff, Instr.mem_all]

end Sys2Proof

namespace Sys2Proof.Machine

/-! ### The assembler's words (R77, R78) -/

/-- A list of commands survives the way through its words. -/
theorem map_decode_map_encode (is : List Instr) : (is.map encode).map decode = is.map .legal := by
  rw [List.map_map]
  exact List.map_congr_left fun i _ => decode_encode i

/-- Settles O49: both expansions are the words of a list of commands. -/
theorem pseudoCommandsExpandInOrder : Obligations.PseudoCommandsExpandInOrder := by
  unfold Obligations.PseudoCommandsExpandInOrder
  refine ⟨fun text => ⟨_, rfl, ?_⟩, _, rfl, map_decode_map_encode [.trig, .meas]⟩
  simpa using map_decode_map_encode (text.map .txb)

/-- The assembler checks the operands of TXB and `.word`, and refuses nothing else. -/
theorem assembleStmt_ok_iff (s : Stmt) : (∃ ws, assembleStmt s = .ok ws) ↔ s.wellFormed = true := by
  cases s with
  | txb imm => by_cases h : imm ≤ 255 <;> simp [assembleStmt, Stmt.wellFormed, h]
  | word w => by_cases h : w ≤ 65535 <;> simp [assembleStmt, Stmt.wellFormed, h]
  | nop | trig | meas | txs | ping => simp [assembleStmt, Stmt.wellFormed]

/-- A statement other than `.word` is assembled to the words of commands. -/
theorem words_are_commands {s : Stmt} {ws : List Word} (h : assembleStmt s = .ok ws) (hs : ∀ n, s ≠ .word n) :
    ∃ is : List Instr, is.map encode = ws := by
  cases s with
  | nop => cases h; exact ⟨[.nop], rfl⟩
  | txb imm =>
    rw [assembleStmt] at h
    split_ifs at h
    cases h
    exact ⟨[.txb (BitVec.ofNat 8 imm)], rfl⟩
  | trig => cases h; exact ⟨[.trig], rfl⟩
  | meas => cases h; exact ⟨[.meas], rfl⟩
  | word w => exact absurd rfl (hs w)
  | txs text => cases h; exact ⟨text.map .txb, List.map_map⟩
  | ping => cases h; exact ⟨[.trig, .meas], rfl⟩

/-- Settles O50: an illegal word is no command's word, so it stands in no statement but `.word`. -/
theorem assemblerRejectsWhatIsOutOfRange : Obligations.AssemblerRejectsWhatIsOutOfRange := by
  unfold Obligations.AssemblerRejectsWhatIsOutOfRange
  refine fun s => ⟨assembleStmt_ok_iff s, fun ws w why hok hmem hillegal => ?_⟩
  by_contra hword
  obtain ⟨is, rfl⟩ := words_are_commands hok (not_exists.1 hword)
  obtain ⟨i, -, rfl⟩ := List.mem_map.1 hmem
  rw [decode_encode] at hillegal
  cases hillegal

end Sys2Proof.Machine
end

section
/-! PROOFS. The family '40_transmitter.md': the levels of a frame (R80), the effect of TXB (R82), the TX registers after
a cycle (R83), the frame on the line (R84), the frames of a string (R87), the idle line (R86), and that the transmitter
and the pulse timer do not interfere (R90). -/

namespace Sys2Proof.Machine

open Sys2Proof.Config

variable {cw stages : Nat}

/-! ### The levels of a frame (R80) and the effect of TXB (R82) -/

/-- The start bit. -/
theorem frameLevel_zero (data : Byte) : frameLevel data 0 = false := rfl

/-- The data bits, least significant first (R57). -/
theorem frameLevel_succ (data : Byte) (i : Fin 8) :
    frameLevel data ⟨i.val + 1, by omega⟩ = data.getLsbD i.val := by
  have hi : i.val + 1 ≤ 8 := i.isLt
  rw [frameLevel, if_neg (Nat.succ_ne_zero _), if_pos hi, Nat.add_sub_cancel]

/-- The stop bit. -/
theorem frameLevel_nine (data : Byte) : frameLevel data 9 = true := rfl

/-- Settles O24: the start bit, the data bits and the stop bit. -/
theorem frameLevelsAreStartDataStop : Obligations.FrameLevelsAreStartDataStop := by
  unfold Obligations.FrameLevelsAreStartDataStop
  exact fun data => ⟨frameLevel_zero data, frameLevel_succ data, frameLevel_nine data⟩

/-- Settles O15: the command's effect on the registers is `startFrame`, which writes the five TX registers. -/
theorem txbCompletesAndStartsTheFrame : Obligations.TxbCompletesAndStartsTheFrame := by
  unfold Obligations.TxbCompletesAndStartsTheFrame
  intro imm8 s
  rw [exec_eq_commandEffect]
  rfl

/-! ### The TX registers after a cycle (R83) -/

/-- No word but TXB writes a TX register (R90). -/
theorem txRegisters_wordEffect (c : Parameters) {k : Decoded} (b : Block cw stages)
    (hk : ∀ d, k ≠ .legal (.txb d)) : txRegisters (wordEffect c k b) = txRegisters b := by
  rcases k with (_ | data | _ | _) | why
  case legal.txb => exact absurd rfl (hk data)
  all_goals rfl

/-- Of the engines, only the TX step writes TX registers (R90). -/
theorem txRegisters_engines (c : Parameters) (e : Bool) (b : Block cw stages) :
    txRegisters (engines c e b) = txRegisters (txStep c b) := by
  simp [txRegisters, engines]

/-- In a cycle without reset that accepts no TXB, the TX registers move by the TX step alone (R83, R115). -/
theorem txRegisters_cycle (c : Parameters) (p : Pins) (b : Block cw stages) (hrst : p.rst = false)
    (htxb : ∀ d, accepted c p b ≠ some (.legal (.txb d))) :
    txRegisters (cycle c p b) = txRegisters (txStep c b) := by
  have hengines := txRegisters_engines c (echoSample b.sync p.echoPin) b
  cases ha : accepted c p b with
  | none => rw [cycle_of_none c p b hrst ha]; exact hengines
  | some k =>
    have hk : ∀ d, k ≠ .legal (.txb d) := fun d hk => htxb d (ha.trans (congrArg some hk))
    rw [cycle_of_some c p b k ha]
    exact (txRegisters_wordEffect c _ hk).trans hengines

/-- Settles O25: an accepted TXB writes last; else the TX registers are those after the TX step, case by case. -/
theorem txEngineStepsThroughTheFrame : Obligations.TxEngineStepsThroughTheFrame := by
  unfold Obligations.TxEngineStepsThroughTheFrame
  intro c p b hrst
  refine ⟨txRegisters_cycle_of_accepted_txb c p b, fun htxb => ?_⟩
  rw [txRegisters_cycle c p b hrst htxb]
  rcases txStep_cases c b with ⟨hact, heq⟩ | ⟨hact, hcnt, hidx, heq⟩ | ⟨hact, hcnt, hidx, heq⟩
    | ⟨hact, hcnt, heq⟩ <;> rw [heq]
  · simp [hact]
  · simp [txRegisters, hact, hcnt, hidx]
  · simp [txRegisters, hact, hcnt, hidx]
  · simp [txRegisters, hact, hcnt]

/-! ### The idle line (R81, R86) -/

/-- A cycle that accepts no TXB leaves an idle line idle, with or without a reset. -/
theorem idleLine_cycle {c : Parameters} {p : Pins} {b : Block cw stages} (hact : b.txAct = false)
    (hout : b.txOut = true) (htxb : ∀ d, accepted c p b ≠ some (.legal (.txb d))) :
    (cycle c p b).txAct = false ∧ (cycle c p b).txOut = true := by
  cases hr : p.rst with
  | true => simp [cycle_of_rst c p b hr]
  | false =>
    have hstep : txStep c b = b := by simp [txStep, hact]
    have hregs := txRegisters_cycle c p b hr htxb
    simp only [hstep, txRegisters, Prod.mk.injEq] at hregs
    obtain ⟨hout', hact', -⟩ := hregs
    exact ⟨hact'.trans hact, hout'.trans hout⟩

/-- Settles O28, by induction on the inputs: the first cycle keeps the line idle, and the rest run from there. -/
theorem idleLineStaysHigh : Obligations.IdleLineStaysHigh := by
  unfold Obligations.IdleLineStaysHigh
  intro c b ps
  induction ps generalizing b with
  | nil => exact fun hact hout _ => ⟨hact, hout⟩
  | cons p ps ih =>
    intro hact hout htxb
    obtain ⟨hact', hout'⟩ := idleLine_cycle hact hout fun d => htxb 0 p d rfl
    exact ih (cycle c p b) hact' hout' fun m => htxb (m + 1)

/-! ### The transmitter and the pulse timer (R90) -/

/-- The TX step reads TX registers only. -/
theorem txRegisters_txStep_congr (c : Parameters) {b b' : Block cw stages}
    (h : txRegisters b = txRegisters b') : txRegisters (txStep c b) = txRegisters (txStep c b') := by
  have hregs := h
  simp only [txRegisters, Prod.mk.injEq] at hregs
  obtain ⟨hout, hact, hidx, hcnt, hdata⟩ := hregs
  simp only [txStep, ← hact, ← hidx, ← hcnt, ← hdata]
  split_ifs
  · simp [txRegisters, hdata]
  · simp [txRegisters, hact, hdata]
  · simp [txRegisters, hout, hact, hidx, hdata]
  · exact h

/-- Acceptance depends on the TX registers (by TX_LAST), BUSY and the host's inputs (R110, R111). -/
theorem accepted_congr (c : Parameters) {p p' : Pins} {b b' : Block cw stages}
    (htx : txRegisters b = txRegisters b') (hbusy : busy b = busy b') (hrst : p.rst = p'.rst)
    (hvalid : p.cmdValid = p'.cmdValid) (hcmd : p.cmd = p'.cmd) : accepted c p b = accepted c p' b' := by
  have hlast : txLast c b = txLast c b' := by
    simp only [txRegisters, Prod.mk.injEq] at htx
    obtain ⟨-, hact, hidx, hcnt, -⟩ := htx
    rw [txLast, txLast, hact, hidx, hcnt]
  have hready : ready c (decode p'.cmd) b = ready c (decode p'.cmd) b' := by
    simp only [ready, txbReady, hbusy, hlast]
  rw [accepted, accepted, cmdReady, cmdReady, hrst, hvalid, hcmd, hready]

/-- The TX registers after a cycle depend on the TX registers, BUSY and the host's inputs only. -/
theorem txRegisters_cycle_congr (c : Parameters) {p p' : Pins} {b b' : Block cw stages}
    (htx : txRegisters b = txRegisters b') (hbusy : busy b = busy b') (hrst : p.rst = p'.rst)
    (hvalid : p.cmdValid = p'.cmdValid) (hcmd : p.cmd = p'.cmd) :
    txRegisters (cycle c p b) = txRegisters (cycle c p' b') := by
  have haccepted := accepted_congr c htx hbusy hrst hvalid hcmd
  cases hr : p.rst with
  | true => rw [cycle_of_rst c p b hr, cycle_of_rst c p' b' (hrst ▸ hr)]
  | false =>
    by_cases htxb : ∃ d, accepted c p b = some (.legal (.txb d))
    · obtain ⟨d, ha⟩ := htxb
      rw [txRegisters_cycle_of_accepted_txb c p b d ha,
        txRegisters_cycle_of_accepted_txb c p' b' d (haccepted ▸ ha)]
    · have hnone := not_exists.1 htxb
      rw [txRegisters_cycle c p b hr hnone, txRegisters_cycle c p' b' (hrst ▸ hr) (haccepted ▸ hnone)]
      exact txRegisters_txStep_congr c htx

/-- Of the engines, only the PT step writes PT registers. -/
theorem ptRegisters_engines (c : Parameters) (e : Bool) (b : Block cw stages) :
    ptRegisters (engines c e b) = ptRegisters (ptStep c e b) :=
  ptRegisters_ptStep_congr c e (by simp [ptRegisters])

/-- An accepted MEAS writes over the PT registers that the PT step has moved (R97, R115). -/
theorem ptRegisters_startMeasurement_congr (c : Parameters) {b b' : Block cw stages}
    (h : ptRegisters b = ptRegisters b') :
    ptRegisters (startMeasurement c b) = ptRegisters (startMeasurement c b') := by
  simp only [ptRegisters, Prod.mk.injEq] at h
  obtain ⟨-, -, -, htb, hcnt, hpsc, htov, -, -⟩ := h
  simp [ptRegisters, htb, hcnt, hpsc, htov]

/-- MEAS is accepted by BUSY and the host's inputs alone (R111). -/
theorem accepted_meas_congr (c : Parameters) (p : Pins) {b b' : Block cw stages} (hbusy : busy b = busy b') :
    accepted c p b = some (.legal .meas) ↔ accepted c p b' = some (.legal .meas) := by
  rw [accepted_eq_some, accepted_eq_some]
  simp only [ready, hbusy]

/-- The PT registers after a cycle depend on the PT registers, SYNC, BUSY and the inputs only: a TXB that TX_LAST makes
ready writes none of them. -/
theorem ptRegisters_cycle_congr (c : Parameters) (p : Pins) {b b' : Block cw stages}
    (hpt : ptRegisters b = ptRegisters b') (hsync : b.sync = b'.sync) (hbusy : busy b = busy b') :
    ptRegisters (cycle c p b) = ptRegisters (cycle c p b') := by
  cases hr : p.rst with
  | true => rw [cycle_of_rst c p b hr, cycle_of_rst c p b' hr]
  | false =>
    have hstep := ptRegisters_ptStep_congr c (echoSample b.sync p.echoPin) hpt
    by_cases hmeas : accepted c p b = some (.legal .meas)
    · have hengines := (ptRegisters_engines c _ b).trans (hstep.trans (ptRegisters_engines c _ b').symm)
      have hstart := ptRegisters_startMeasurement_congr c hengines
      rw [cycle_of_some c p b _ hmeas, cycle_of_some c p b' _ ((accepted_meas_congr c p hbusy).1 hmeas), ← hsync]
      exact hstart
    · rw [ptRegisters_cycle c p b hr hmeas,
        ptRegisters_cycle c p b' hr (mt (accepted_meas_congr c p hbusy).2 hmeas), ← hsync, hstep]

/-- SYNC after a cycle depends on SYNC and the inputs only (R41). -/
theorem sync_cycle_congr (c : Parameters) (p : Pins) {b b' : Block cw stages} (hsync : b.sync = b'.sync) :
    (cycle c p b).sync = (cycle c p b').sync := by
  cases hr : p.rst with
  | true => rw [cycle_of_rst c p b hr, cycle_of_rst c p b' hr]
  | false => rw [cycle_sync c p b hr, cycle_sync c p b' hr, hsync]

/-- Settles O30: the frames of the engines' writes, and what the registers of either unit after a cycle depend on. -/
theorem transmitterAndPulseTimerDoNotInterfere : Obligations.TransmitterAndPulseTimerDoNotInterfere := by
  unfold Obligations.TransmitterAndPulseTimerDoNotInterfere
  intro c b b' p p' e
  refine ⟨?txWrites, ?otherWrites, txRegisters_cycle_congr c,
    fun hpt hsync hbusy => ⟨ptRegisters_cycle_congr c p hpt hsync hbusy, sync_cycle_congr c p hsync⟩⟩
  case txWrites => simp [trigRegisters, ptRegisters]
  case otherWrites => simp [txRegisters]

/-! ### The cycles of a frame (R84) -/

/-- The block is in cycle m, counted from 0, of the 10 × B cycles of the frame of `data`: the line is at the level of
the bit period, and the bit periods before it and the cycles spent in it add up to m. -/
structure InFrame (c : Parameters) (data : Byte) (m : Nat) (b : Block cw stages) : Prop where
  txAct : b.txAct = true
  txData : b.txData = data
  txOut : b.txOut = frameLevel data b.txIdx
  txCnt_lt : b.txCnt.toNat < c.bitCycles
  position : b.txIdx.val * c.bitCycles + b.txCnt.toNat = m

/-- A frame's position is in the TX registers alone. -/
theorem InFrame.of_txRegisters {c : Parameters} {data : Byte} {m : Nat} {b b' : Block cw stages}
    (h : InFrame c data m b') (hregs : txRegisters b = txRegisters b') : InFrame c data m b := by
  simp only [txRegisters, Prod.mk.injEq] at hregs
  obtain ⟨hout, hact, hidx, hcnt, hdata⟩ := hregs
  exact ⟨hact ▸ h.txAct, hdata ▸ h.txData, by rw [hout, hidx, h.txOut], hcnt ▸ h.txCnt_lt,
    by rw [hidx, hcnt, h.position]⟩

/-- The cycle number determines the bit period and the cycle within it. -/
theorem InFrame.txIdx_txCnt {c : Parameters} {data : Byte} {i : Fin 10} {j : Nat} {b : Block cw stages}
    (h : InFrame c data (i.val * c.bitCycles + j) b) (hj : j < c.bitCycles) :
    b.txIdx = i ∧ b.txCnt.toNat = j := by
  have hpos := h.position
  have hcnt := h.txCnt_lt
  have hidx : b.txIdx.val = i.val := by
    rw [mul_comm, mul_comm i.val] at hpos
    calc b.txIdx.val = (c.bitCycles * b.txIdx.val + b.txCnt.toNat) / c.bitCycles := by
          rw [Nat.mul_add_div (by omega), Nat.div_eq_of_lt hcnt, Nat.add_zero]
      _ = (c.bitCycles * i.val + j) / c.bitCycles := by rw [hpos]
      _ = i.val := by rw [Nat.mul_add_div (by omega), Nat.div_eq_of_lt hj, Nat.add_zero]
  rw [hidx] at hpos
  exact ⟨Fin.ext hidx, by omega⟩

/-- In cycle j of bit period i the line is at level i (R80). -/
theorem InFrame.txOut_eq {c : Parameters} {data : Byte} {i : Fin 10} {j : Nat} {b : Block cw stages}
    (h : InFrame c data (i.val * c.bitCycles + j) b) (hj : j < c.bitCycles) : b.txOut = frameLevel data i := by
  obtain ⟨hidx, -⟩ := h.txIdx_txCnt hj
  rw [h.txOut, hidx]

/-- The cycles of the ten bit periods are those of the frame. -/
theorem bitPeriod_cycle_lt {B j : Nat} (i : Fin 10) (hj : j < B) : i.val * B + j < 10 * B := by
  have hle := Nat.mul_le_mul_right B (Nat.le_of_lt_succ i.isLt)
  omega

/-- TX_LAST is the last of the 10 × B cycles (R44). -/
theorem InFrame.txLast_iff {c : Parameters} {data : Byte} {m : Nat} {b : Block cw stages}
    (h : InFrame c data m b) : txLast c b = true ↔ m + 1 = 10 * c.bitCycles := by
  have hcnt := h.txCnt_lt
  rw [txLast_eq_true_iff, ← h.position]
  constructor
  · rintro ⟨-, hidx, hlast⟩
    have hnine : (9 : Fin 10).val = 9 := rfl
    rw [hidx, hlast, hnine]
    omega
  · intro hm
    have hidx : b.txIdx.val = 9 := by
      by_contra hne
      have hle : b.txIdx.val * c.bitCycles ≤ 8 * c.bitCycles := Nat.mul_le_mul_right _ (by omega)
      omega
    rw [hidx] at hm
    exact ⟨h.txAct, Fin.ext hidx, by omega⟩

/-- During a frame, TXB is accepted in its last cycle only (R85, R111). -/
theorem txLast_of_accepted_txb {c : Parameters} {p : Pins} {b : Block cw stages} {d : Byte}
    (hact : b.txAct = true) (ha : accepted c p b = some (.legal (.txb d))) : txLast c b = true := by
  obtain ⟨-, -, -, hready⟩ := (accepted_eq_some c p b _).1 ha
  have hbusy : busy b = true := (busy_eq_true_iff b).2 (.inl hact)
  simpa [ready, txbReady, hbusy] using hready

/-- An accepted TXB puts the block in the first cycle of its frame (R82). -/
theorem inFrame_of_accepted_txb {c : Parameters} (hc : c.Legal) {p : Pins} {b : Block cw stages} {data : Byte}
    (ha : accepted c p b = some (.legal (.txb data))) : InFrame c data 0 (cycle c p b) := by
  obtain ⟨hB, -⟩ := hc.bitCycles
  have hstart : InFrame c data 0 (startFrame data b) :=
    ⟨rfl, rfl, rfl, hB, by simp⟩
  exact hstart.of_txRegisters (txRegisters_cycle_of_accepted_txb c p b data ha)

/-- The TX step takes a frame from each cycle to the next, short of the last (R83). -/
theorem InFrame.succ_txStep {c : Parameters} (hc : c.Legal) {data : Byte} {m : Nat} {b : Block cw stages}
    (h : InFrame c data m b) (hm : m + 1 < 10 * c.bitCycles) : InFrame c data (m + 1) (txStep c b) := by
  obtain ⟨hB, -⟩ := hc.bitCycles
  have hlt := h.txCnt_lt
  have hpos := h.position
  rcases txStep_cases c b with ⟨hidle, -⟩ | ⟨hact, hcnt, hidx, -⟩ | ⟨hact, hcnt, hidx, heq⟩ | ⟨hact, hcnt, heq⟩
  · exact absurd (hidle.symm.trans h.txAct) Bool.false_ne_true
  · exact absurd (h.txLast_iff.1 ((txLast_eq_true_iff c b).2 ⟨hact, hidx, hcnt⟩)) hm.ne
  · rw [heq]
    refine ⟨hact, h.txData, by rw [← h.txData], hB, ?_⟩
    have hzero : (0 : BitVec 16).toNat = 0 := rfl
    simp only [txIdx_succ_val hidx, Nat.succ_mul, hzero]
    omega
  · have hsucc := txCnt_succ_toNat hc (by omega) hcnt
    rw [heq]
    refine ⟨hact, h.txData, h.txOut, ?_, ?_⟩
    · simp only [hsucc]
      omega
    · simp only [hsucc]
      omega

/-- Short of the last cycle of a frame, every cycle without reset goes on with it, whatever the host offers. -/
theorem InFrame.succ_cycle {c : Parameters} (hc : c.Legal) {data : Byte} {m : Nat} {p : Pins} {b : Block cw stages}
    (h : InFrame c data m b) (hrst : p.rst = false) (hm : m + 1 < 10 * c.bitCycles) :
    InFrame c data (m + 1) (cycle c p b) := by
  have htxb : ∀ d, accepted c p b ≠ some (.legal (.txb d)) := fun d ha =>
    hm.ne (h.txLast_iff.1 (txLast_of_accepted_txb h.txAct ha))
  exact (h.succ_txStep hc hm).of_txRegisters (txRegisters_cycle c p b hrst htxb)

/-- A run's next cycle. -/
theorem runCycles_take_succ (c : Parameters) {ps : List Pins} {m : Nat} {q : Pins} (b : Block cw stages)
    (hq : ps[m]? = some q) :
    runCycles c (ps.take (m + 1)) b = cycle c q (runCycles c (ps.take m) b) := by
  rw [List.take_add_one, hq, runCycles_append]
  rfl

/-- A run without reset that is in the first cycle of a frame after a cycles goes on with it for 10 × B cycles. -/
theorem InFrame.runCycles_take {c : Parameters} (hc : c.Legal) {data : Byte} {ps : List Pins} {a : Nat}
    {b : Block cw stages} (h : InFrame c data 0 (runCycles c (ps.take a) b)) (hps : noReset ps) {n : Nat}
    (hn : n < 10 * c.bitCycles) (hlen : a + n ≤ ps.length) :
    InFrame c data n (runCycles c (ps.take (a + n)) b) := by
  induction n with
  | zero => exact h
  | succ n ih =>
    have hq : ps[a + n]? = some ps[a + n] := List.getElem?_eq_getElem (by omega)
    rw [← Nat.add_assoc, runCycles_take_succ c b hq]
    exact (ih (by omega) (by omega)).succ_cycle hc (hps _ (List.getElem_mem _)) hn

/-! ### One frame (R84) -/

/-- I-2 along a run. -/
theorem oneOperation_runCycles (c : Parameters) (ps : List Pins) (b : Block cw stages) (h : oneOperation b) :
    oneOperation (runCycles c ps b) := by
  induction ps generalizing b with
  | nil => exact h
  | cons p ps ih => exact ih _ (oneOperation_cycle c p b h)

/-- A busy block starts no pulse and no measurement (R111). -/
theorem trig_pt_idle_cycle_of_busy {c : Parameters} {p : Pins} {b : Block cw stages} (hrst : p.rst = false)
    (hbusy : busy b = true) (htrig : b.trigOut = false) (hpt : b.ptPhase = .idle) :
    (cycle c p b).trigOut = false ∧ (cycle c p b).ptPhase = .idle := by
  have htrig' := trigOut_engines_eq_false c (echoSample b.sync p.echoPin) htrig
  have hpt' := ptPhase_engines_eq_idle c (echoSample b.sync p.echoPin) hpt
  cases ha : accepted c p b with
  | none =>
    rw [cycle_of_none c p b hrst ha]
    exact ⟨htrig', hpt'⟩
  | some k =>
    obtain ⟨-, -, -, hready⟩ := (accepted_eq_some c p b k).1 ha
    rw [cycle_of_some c p b k ha]
    rcases ready_of_busy c k b hbusy hready with rfl | ⟨why, rfl⟩ | ⟨-, d, rfl⟩
    all_goals exact ⟨htrig', hpt'⟩

/-- After the last cycle of a frame, a frame is being sent exactly when that cycle accepted a TXB (R83, R85). -/
theorem txAct_cycle_of_txLast {c : Parameters} {q : Pins} {b : Block cw stages} (hrst : q.rst = false)
    (hlast : txLast c b = true) :
    (cycle c q b).txAct = true ↔ ∃ d, accepted c q b = some (.legal (.txb d)) := by
  constructor
  · intro hact
    by_contra hnone
    obtain ⟨hbact, hidx, hcnt⟩ := (txLast_eq_true_iff c b).1 hlast
    have hend : txStep c b = { b with txAct := false, txIdx := 0, txCnt := 0, txOut := true } := by
      simp [txStep, hbact, hidx, hcnt]
    have hregs := txRegisters_cycle c q b hrst (not_exists.1 hnone)
    rw [hend] at hregs
    simp only [txRegisters, Prod.mk.injEq] at hregs
    obtain ⟨-, hact', -⟩ := hregs
    exact Bool.false_ne_true (hact'.symm.trans hact)
  · rintro ⟨d, ha⟩
    rw [cycle_of_some c q b _ ha]
    rfl

/-- Settles O26: the position in the frame gives the registers of each cycle. In the last one the block is busy with the
frame alone (I-2), so that it starts nothing but the next frame. -/
theorem frameHoldsEachLevelForBCycles : Obligations.FrameHoldsEachLevelForBCycles := by
  unfold Obligations.FrameHoldsEachLevelForBCycles
  intro c hc b p q data ps hone ha hps hq hlen
  have hstart : InFrame c data 0 (cycle c p b) := inFrame_of_accepted_txb hc ha
  have hframe : ∀ m, m < 10 * c.bitCycles → InFrame c data m (runCycles c (ps.take m) (cycle c p b)) := by
    intro m hm
    simpa using InFrame.runCycles_take (a := 0) (b := cycle c p b) hc hstart hps hm (by omega)
  constructor
  · intro i j hj
    have ht := hframe _ (bitPeriod_cycle_lt i hj)
    obtain ⟨hidx, hcnt⟩ := ht.txIdx_txCnt hj
    refine ⟨ht.txOut_eq hj, ht.txAct, (busy_eq_true_iff _).2 (.inl ht.txAct), ?_⟩
    rw [txLast_eq_true_iff, hidx, hcnt]
    exact and_iff_right ht.txAct
  · have hend : InFrame c data ps.length (runCycles c ps (cycle c p b)) := by
      simpa using hframe ps.length (by omega)
    have hbusy := (busy_eq_true_iff _).2 (.inl hend.txAct)
    obtain ⟨htrig, hpt⟩ := idle_of_txbReady (c := c)
      (oneOperation_runCycles c ps _ (oneOperation_cycle c p b hone))
      (by simp [txbReady, hend.txLast_iff.2 hlen])
    obtain ⟨htrig', hpt'⟩ := trig_pt_idle_cycle_of_busy (c := c) hq hbusy htrig hpt
    exact ⟨by simp [busy, htrig', hpt'], txAct_cycle_of_txLast hq (hend.txLast_iff.2 hlen)⟩

/-! ### The frames of a string (R87) -/

/-- The offer of TXB in the last cycle of a frame is accepted, and its frame follows without a gap (R85). -/
theorem InFrame.cycle_of_offered_txb {c : Parameters} (hc : c.Legal) {data next : Byte} {m : Nat} {q : Pins}
    {b : Block cw stages} (h : InFrame c data m b) (hm : m + 1 = 10 * c.bitCycles) (hrst : q.rst = false)
    (hvalid : q.cmdValid = true) (hcmd : q.cmd = encode (.txb next)) :
    InFrame c next 0 (cycle c q b) := by
  have hready : ready c (.legal (.txb next)) b = true := by simp [ready, txbReady, h.txLast_iff.2 hm]
  exact inFrame_of_accepted_txb hc
    ((accepted_eq_some c q b _).2 ⟨hrst, hvalid, hcmd ▸ decode_encode _, hready⟩)

/-- The host offers the bytes of `rest` one after another, each as TXB through all 10 × B cycles of the frame before
it. -/
def OffersString (c : Parameters) (rest : List Byte) (ps : List Pins) : Prop :=
  ∀ (m : Nat) (q : Pins) (next : Byte), ps[m]? = some q → rest[m / (10 * c.bitCycles)]? = some next →
    q.cmdValid = true ∧ q.cmd = encode (.txb next)

/-- The frame of byte j starts 10 × B × j cycles after the first, by induction on j: in the last cycle of each frame
the host offers the next byte. -/
theorem inFrame_of_offersString {c : Parameters} (hc : c.Legal) {first : Byte} {rest : List Byte} {ps : List Pins}
    {b : Block cw stages} (hstart : InFrame c first 0 b) (hps : noReset ps)
    (hlen : ps.length + 1 = 10 * c.bitCycles * (rest.length + 1)) (hoffer : OffersString c rest ps)
    {j : Nat} {data : Byte} (hdata : (first :: rest)[j]? = some data) :
    InFrame c data 0 (runCycles c (ps.take (10 * c.bitCycles * j)) b) := by
  have hB := hc.bitCycles
  induction j generalizing data with
  | zero =>
    cases hdata
    exact hstart
  | succ j ih =>
    have hnext : rest[j]? = some data := hdata
    obtain ⟨hj, -⟩ := List.getElem?_eq_some_iff.1 hnext
    have hfits := Nat.mul_le_mul_left (10 * c.bitCycles) (Nat.succ_le_of_lt hj)
    rw [Nat.mul_succ] at hlen hfits
    obtain ⟨prev, hprev⟩ : ∃ prev, (first :: rest)[j]? = some prev :=
      ⟨_, List.getElem?_eq_getElem (Nat.lt_succ_of_lt hj)⟩
    have hlast := (ih hprev).runCycles_take hc hps (n := 10 * c.bitCycles - 1) (by omega) (by omega)
    have hframe : (10 * c.bitCycles * j + (10 * c.bitCycles - 1)) / (10 * c.bitCycles) = j := by
      rw [Nat.mul_add_div (by omega), Nat.div_eq_of_lt (by omega), Nat.add_zero]
    obtain ⟨q, hq⟩ : ∃ q, ps[10 * c.bitCycles * j + (10 * c.bitCycles - 1)]? = some q :=
      ⟨_, List.getElem?_eq_getElem (by omega)⟩
    obtain ⟨hvalid, hcmd⟩ := hoffer _ _ data hq (hframe.symm ▸ hnext)
    have hsucc : 10 * c.bitCycles * (j + 1) = 10 * c.bitCycles * j + (10 * c.bitCycles - 1) + 1 := by
      rw [Nat.mul_succ]
      omega
    rw [hsucc, runCycles_take_succ c b hq]
    exact hlast.cycle_of_offered_txb hc (by omega) (hps q (List.mem_of_getElem? hq)) hvalid hcmd

/-- Settles O27: each byte's frame starts where `inFrame_of_offersString` says, and goes on as a single frame does. -/
theorem stringFramesFollowWithoutGap : Obligations.StringFramesFollowWithoutGap := by
  unfold Obligations.StringFramesFollowWithoutGap
  intro c hc b p first rest ps ha hps hlen hoffer j data hdata i r hr
  have hbyte := inFrame_of_offersString hc (inFrame_of_accepted_txb hc ha) hps hlen hoffer hdata
  have hm := bitPeriod_cycle_lt i hr
  obtain ⟨hj, -⟩ := List.getElem?_eq_some_iff.1 hdata
  have hfits := Nat.mul_le_mul_left (10 * c.bitCycles) (Nat.succ_le_of_lt hj)
  rw [List.length_cons, Nat.mul_succ] at hfits
  rw [Nat.add_assoc]
  exact (hbyte.runCycles_take hc hps hm (by omega)).txOut_eq hr

end Sys2Proof.Machine
end

section
/-! PROOFS. The family '41_pulse_timer.md': the effects of TRIG and MEAS (R92, R97), the steps of the two waiting phases
(R99, R100, R124), the counter without a lost wrap (R96), the trigger pulse and PING (R93, R94), and the measurement of
an echo (R102). -/

namespace Sys2Proof.Machine

open Sys2Proof.Config

variable {cw stages : Nat}

/-! ### The ranges of R7 in the registers -/

/-- A legal CW fits the 32 bits of DUR (R7, R8). -/
theorem counterWidth_le_wide {c : Parameters} (hc : c.Legal) : 1 ≤ c.counterWidth ∧ c.counterWidth ≤ 32 :=
  hc.counterWidth.imp_right fun h => h.trans (by decide)

/-- TRG_CNT holds T − 1 without a wrap, T being at most 65536 (R7). -/
theorem startPulse_trgCnt_toNat {c : Parameters} (hc : c.Legal) (b : Block cw stages) :
    (startPulse c b).trgCnt.toNat = c.trigCycles - 1 := by
  have hT := hc.trigCycles
  rw [startPulse_trgCnt, BitVec.toNat_ofNat]
  exact Nat.mod_eq_of_lt (by omega)

/-- TA holds M without a wrap (R7). -/
theorem startMeasurement_ta_toNat {c : Parameters} (hc : c.Legal) (b : Block cw stages) :
    (startMeasurement c b).ta.toNat = c.riseBudget := by
  have hM := hc.riseBudget
  rw [startMeasurement_ta, BitVec.toNat_ofNat]
  exact Nat.mod_eq_of_lt (by omega)

/-- TB holds N without a wrap (R7). -/
theorem fallBudget_toNat {c : Parameters} (hc : c.Legal) :
    (BitVec.ofNat 32 c.fallBudget).toNat = c.fallBudget := by
  have hN := hc.fallBudget
  rw [BitVec.toNat_ofNat]
  exact Nat.mod_eq_of_lt (by omega)

/-! ### The effects of TRIG (R92) and MEAS (R97) -/

/-- Settles O16: the command's effect on the registers is `startPulse`, which writes the two trigger registers. -/
theorem trigCompletesAndStartsThePulse : Obligations.TrigCompletesAndStartsThePulse := by
  unfold Obligations.TrigCompletesAndStartsThePulse
  exact fun s => ⟨_, exec_eq_commandEffect .trig s, rfl, startPulse_trgCnt_toNat params_legal s.toBlock, rfl⟩

/-- Settles O17: the command's effect on the registers is `startMeasurement`, which writes five PT registers. -/
theorem measCompletesAndStartsTheMeasurement : Obligations.MeasCompletesAndStartsTheMeasurement := by
  unfold Obligations.MeasCompletesAndStartsTheMeasurement
  exact fun s => ⟨_, exec_eq_commandEffect .meas s, rfl, rfl, startMeasurement_ta_toNat params_legal s.toBlock,
    rfl, rfl, rfl⟩

/-! ### The PT step, branch by branch (R99, R100) -/

/-- Phase A, a sample of 1: the rise. -/
theorem ptStep_of_rise_high (c : Parameters) {b : Block cw stages} (hp : b.ptPhase = .rise) :
    ptStep c true b = { b with ptPhase := .fall, cnt := 0, psc := 0, tov := false, ovf := 0,
                               tb := BitVec.ofNat 32 c.fallBudget } := by
  simp [ptStep, hp, riseStep]

/-- Phase A, a sample of 0 with the budget spent: the timeout. -/
theorem ptStep_of_rise_last (c : Parameters) {b : Block cw stages} (hp : b.ptPhase = .rise) (hta : b.ta = 1) :
    ptStep c false b = { b with ta := 0, ptPhase := .idle, ptStat := .tmo, dur := 0 } := by
  simp [ptStep, hp, riseStep, hta, raiseError]

/-- Phase A, a sample of 0 within the budget: the decrement. -/
theorem ptStep_of_rise_low (c : Parameters) {b : Block cw stages} (hp : b.ptPhase = .rise) (hta : b.ta ≠ 1) :
    ptStep c false b = { b with ta := b.ta - 1 } := by
  simp only [ptStep, hp, riseStep, if_neg hta, Bool.false_eq_true, if_false]

/-- Phase B, a sample of 0: the fall. -/
theorem ptStep_of_fall_low (c : Parameters) {b : Block cw stages} (hp : b.ptPhase = .fall) :
    ptStep c false b = { countingStep c b with dur := extendedCount (countingStep c b), ptPhase := .idle,
                                               ptStat := .ok } := by
  simp [ptStep, hp, fallStep, fallOutcome]

/-- Phase B, a sample of 1 with the budget spent: the timeout. -/
theorem ptStep_of_fall_last (c : Parameters) {b : Block cw stages} (hp : b.ptPhase = .fall) (htb : b.tb = 1) :
    ptStep c true b = { countingStep c b with tb := 0, ptPhase := .idle, ptStat := .tmo, dur := 0 } := by
  simp [ptStep, hp, fallStep, fallOutcome, htb, raiseError]

/-- Phase B, a sample of 1 within the budget: the decrement. -/
theorem ptStep_of_fall_high (c : Parameters) {b : Block cw stages} (hp : b.ptPhase = .fall) (htb : b.tb ≠ 1) :
    ptStep c true b = { countingStep c b with tb := b.tb - 1 } := by
  simp only [ptStep, hp, fallStep, fallOutcome, if_true]
  exact if_neg htb

/-- Every Phase B step leaves the counter as one counting step does, and TA alone. -/
theorem ptStep_of_fall_counter (c : Parameters) (e : Bool) {b : Block cw stages} (hp : b.ptPhase = .fall) :
    (ptStep c e b).psc = (countingStep c b).psc ∧ (ptStep c e b).cnt = (countingStep c b).cnt
    ∧ (ptStep c e b).ovf = (countingStep c b).ovf ∧ (ptStep c e b).tov = (countingStep c b).tov
    ∧ (ptStep c e b).ta = b.ta := by
  cases e with
  | false => simp [ptStep_of_fall_low c hp]
  | true =>
    by_cases htb : b.tb = 1
    · simp [ptStep_of_fall_last c hp htb]
    · simp [ptStep_of_fall_high c hp htb]

/-- Settles O41: the sample is tested before the budget. -/
theorem edgeInTheLastSampleWinsOverTheTimeout : Obligations.EdgeInTheLastSampleWinsOverTheTimeout := by
  unfold Obligations.EdgeInTheLastSampleWinsOverTheTimeout
  refine fun c b => ⟨fun hp _ => ?_, fun hp _ => ?_⟩
  · rw [ptStep_of_rise_high c hp]
    exact ⟨rfl, rfl⟩
  · rw [ptStep_of_fall_low c hp]
    exact ⟨rfl, rfl⟩

/-! ### The two phases in a cycle (R99, R100) -/

/-- While a measurement runs, the PT registers move by the PT step, whatever the host offers (R111). -/
theorem ptRegisters_cycle_of_measuring (c : Parameters) {p : Pins} {b : Block cw stages} (hrst : p.rst = false)
    (hp : b.ptPhase ≠ .idle) :
    ptRegisters (cycle c p b) = ptRegisters (ptStep c (echoSample b.sync p.echoPin) b) :=
  ptRegisters_cycle c p b hrst fun ha => hp (ptPhase_of_accepted_meas ha)

/-- Settles O33: the branches of the Phase A step. -/
theorem phaseAStepTestsThenDecrements : Obligations.PhaseAStepTestsThenDecrements := by
  unfold Obligations.PhaseAStepTestsThenDecrements
  intro c hc p b hrst hp
  have hpt := ptRegisters_cycle_of_measuring c hrst (b := b) (by simp [hp])
  refine ⟨fun he => ?rise, fun he hta => ?timeout, fun he hta => ?decrement⟩
  case rise =>
    rw [he, ptStep_of_rise_high c hp] at hpt
    have htb : (cycle c p b).tb = BitVec.ofNat 32 c.fallBudget := by
      simp only [ptRegisters, Prod.mk.injEq] at hpt
      obtain ⟨-, -, -, htb, -⟩ := hpt
      exact htb
    rw [htb]
    exact ⟨fallBudget_toNat hc, hpt⟩
  case timeout => rw [hpt, he, ptStep_of_rise_last c hp hta]; rfl
  case decrement => rw [hpt, he, ptStep_of_rise_low c hp hta]; simp [ptRegisters, hp]

/-- CNT after a counting step, in numbers. -/
theorem countingStep_cnt_toNat (c : Parameters) (b : Block cw stages) :
    (countingStep c b).cnt.toNat
      = if b.psc.toNat = c.prescale - 1 then (b.cnt.toNat + 1) % 2 ^ cw else b.cnt.toNat := by
  simp only [countingStep_cnt, tick_iff]
  split <;> simp

/-- OVF after a counting step, in numbers. -/
theorem countingStep_ovf_toNat (c : Parameters) (b : Block cw stages) :
    (countingStep c b).ovf.toNat = (b.ovf.toNat + b.tov.toNat) % 2 ^ (32 - cw) := by
  rw [countingStep_ovf, BitVec.toNat_add, BitVec.toNat_ofNat, Nat.add_mod_mod]

/-- TOV after a counting step, in numbers: a tick at CNT = MOD − 1. -/
theorem countingStep_tov_iff (c : Parameters) (b : Block cw stages) :
    (countingStep c b).tov = true ↔ b.psc.toNat = c.prescale - 1 ∧ b.cnt.toNat = 2 ^ cw - 1 := by
  rw [countingStep_tov, wrap, Bool.and_eq_true, tick_iff, beq_iff_eq, ← BitVec.toNat_inj, BitVec.toNat_allOnes]

/-- The sum of R100 in numbers, at 32 bits. -/
theorem extendedCount_toNat_mod (b : Block cw stages) :
    (extendedCount b).toNat = ((b.ovf.toNat + b.tov.toNat) * 2 ^ cw + b.cnt.toNat) % 2 ^ 32 := by
  simp only [extendedCount, BitVec.toNat_add, BitVec.toNat_mul, BitVec.toNat_setWidth, BitVec.toNat_ofNat]
  simp only [Nat.add_mod_mod, Nat.mod_add_mod, Nat.mul_mod_mod, Nat.mod_mul_mod]

/-- A run that stays outside Phase B leaves the counter alone (R43, R70). -/
theorem counter_runCycles_of_ne_fall (c : Parameters) (qs : List Pins)
    (b : Block c.counterWidth c.syncStages) (hqs : noReset qs)
    (hphase : ∀ m, m ≤ qs.length → (runCycles c (qs.take m) b).ptPhase ≠ .fall) :
    (runCycles c qs b).cnt = b.cnt ∧ (runCycles c qs b).psc = b.psc ∧ (runCycles c qs b).tov = b.tov := by
  induction qs generalizing b with
  | nil => exact ⟨rfl, rfl, rfl⟩
  | cons q qs ih =>
    obtain ⟨hq, hqs⟩ := List.forall_mem_cons.1 hqs
    have hbefore : b.ptPhase ≠ .fall := hphase 0 (Nat.zero_le _)
    have hafter : ∀ m, m ≤ qs.length → (runCycles c (qs.take m) (cycle c q b)).ptPhase ≠ .fall :=
      fun m hm => hphase (m + 1) (Nat.succ_le_succ hm)
    obtain ⟨hcnt, hpsc, htov⟩ :=
      counterStandsStillOutsidePhaseB c q b hq hbefore (hafter 0 (Nat.zero_le _))
    obtain ⟨hcnt', hpsc', htov'⟩ := ih (cycle c q b) hqs hafter
    exact ⟨hcnt'.trans hcnt, hpsc'.trans hpsc, htov'.trans htov⟩

/-- Settles O34: the counting step in numbers, then the branches of the Phase B step, and
`counter_runCycles_of_ne_fall` for what follows. -/
theorem phaseBStepCountsThenDecides : Obligations.PhaseBStepCountsThenDecides := by
  unfold Obligations.PhaseBStepCountsThenDecides
  intro c p b hrst hp t ticks
  have hpt : ptRegisters t = ptRegisters (ptStep c (echoSample b.sync p.echoPin) b) :=
    ptRegisters_cycle_of_measuring c hrst (by simp [hp])
  simp only [ptRegisters, Prod.mk.injEq] at hpt
  obtain ⟨hphase, hstat, hta, htb, hcnt, hpsc, htov, hovf, hdur⟩ := hpt
  obtain ⟨hpsc', hcnt', hovf', htov', hta'⟩ := ptStep_of_fall_counter c (echoSample b.sync p.echoPin) hp
  rw [hcnt, hcnt', countingStep_cnt_toNat, hpsc, hpsc', hovf, hovf', htov, htov', countingStep_tov_iff, hta]
  refine ⟨rfl, by simp [ticks], countingStep_ovf_toNat c b, by simp [ticks], hta', fun he => ?fall,
    fun he hlast => ?timeout, fun he hlast => ?decrement, fun qs hqs hne => ?stand⟩
  case fall =>
    rw [hphase, hstat, htb, hdur, he, ptStep_of_fall_low c hp]
    rw [← countingStep_cnt_toNat]
    exact ⟨rfl, rfl, rfl, extendedCount_toNat_mod (countingStep c b)⟩
  case timeout =>
    rw [hphase, hstat, htb, hdur, he, ptStep_of_fall_last c hp hlast]
    exact ⟨rfl, rfl, rfl, rfl⟩
  case decrement =>
    rw [hphase, hstat, htb, hdur, he, ptStep_of_fall_high c hp hlast]
    exact ⟨hp, rfl, rfl, rfl⟩
  case stand =>
    have hrun := counter_runCycles_of_ne_fall c qs t hqs hne
    rwa [hcnt, hcnt', hpsc, hpsc', htov, htov'] at hrun

/-! ### The counter loses no wrap (R96) -/

/-- From a cleared counter, n counting steps are held exactly as long as they fit 32 bits. -/
theorem holdsSteps_iterate {c : Parameters} (hc : c.Legal) (hcw : 1 ≤ cw ∧ cw ≤ 32) {b : Block cw stages}
    (h : b.HoldsSteps c 0) {n : Nat} (hn : n ≤ 2 ^ 32) : ((countingStep c)^[n] b).HoldsSteps c n := by
  induction n with
  | zero => exact h
  | succ n ih =>
    rw [Function.iterate_succ_apply']
    exact holdsSteps_countingStep c hc.prescale hcw _ n hn (ih (Nat.le_of_succ_le hn))

/-- Two successive counting steps do not both wrap: after a wrap CNT is 0, which is not MOD − 1. -/
theorem tov_countingStep_of_tov (c : Parameters) (hcw : 1 ≤ cw) {b : Block cw stages}
    (h : (countingStep c b).tov = true) : (countingStep c (countingStep c b)).tov = false := by
  obtain ⟨htick, hcnt⟩ := (countingStep_tov_iff c b).1 h
  have hmod : 2 ≤ 2 ^ cw := Nat.le_self_pow (by omega) 2
  have hzero : (countingStep c b).cnt.toNat = 0 := by
    rw [countingStep_cnt_toNat, if_pos htick, hcnt, Nat.sub_add_cancel (by omega), Nat.mod_self]
  rw [← Bool.not_eq_true, countingStep_tov_iff, hzero]
  omega

/-- Settles O36: the counter holds n steps (`holdsSteps_iterate`), and CNT < MOD splits the sum. -/
theorem counterLosesNoWrap : Obligations.CounterLosesNoWrap := by
  unfold Obligations.CounterLosesNoWrap
  intro c hc b n hn hcnt hpsc htov hovf t
  have hcw := counterWidth_le_wide hc
  obtain ⟨hphase, hsum⟩ : t.HoldsSteps c n :=
    holdsSteps_iterate hc hcw (by simp [Block.HoldsSteps, hcnt, hpsc, htov, hovf]) hn.le
  refine ⟨hphase, ?cnt, ?wraps, fun ht => ?once⟩
  case cnt => rw [← hsum, mul_comm, Nat.mul_add_mod, Nat.mod_eq_of_lt t.cnt.isLt]
  case wraps =>
    rw [← hsum, mul_comm, Nat.mul_add_div (Nat.two_pow_pos _), Nat.div_eq_of_lt t.cnt.isLt, Nat.add_zero]
  case once =>
    cases n with
    | zero => exact absurd (htov.symm.trans ht) Bool.false_ne_true
    | succ n =>
      have hlast : t = countingStep c ((countingStep c)^[n] b) := Function.iterate_succ_apply' _ _ _
      rw [hlast] at ht ⊢
      exact tov_countingStep_of_tov c hcw.1 ht

/-! ### A cycle of a pulse or a measurement -/

/-- The trigger step reads and writes trigger registers only (R90). -/
theorem trigRegisters_engines (c : Parameters) (e : Bool) (b : Block cw stages) :
    trigRegisters (engines c e b) = trigRegisters (trigStep b) := by
  simp only [engines, trigRegisters, ptStep_trigOut, ptStep_trgCnt, trigStep, txStep_trigOut, txStep_trgCnt]
  split_ifs <;> simp

/-- A busy block that sends no frame accepts NOP and illegal words only, so that each engine moves its own registers
(R90, R111). -/
theorem cycle_of_busy {c : Parameters} {p : Pins} {b : Block cw stages} (hrst : p.rst = false)
    (hbusy : busy b = true) (htx : b.txAct = false) :
    (cycle c p b).txAct = false ∧ trigRegisters (cycle c p b) = trigRegisters (trigStep b)
    ∧ ptRegisters (cycle c p b) = ptRegisters (ptStep c (echoSample b.sync p.echoPin) b) := by
  have htx' := txAct_engines_eq_false c (echoSample b.sync p.echoPin) htx
  have htrig := trigRegisters_engines c (echoSample b.sync p.echoPin) b
  have hpt := ptRegisters_engines c (echoSample b.sync p.echoPin) b
  cases ha : accepted c p b with
  | none =>
    rw [cycle_of_none c p b hrst ha]
    exact ⟨htx', htrig, hpt⟩
  | some k =>
    obtain ⟨-, -, -, hready⟩ := (accepted_eq_some c p b k).1 ha
    rw [cycle_of_some c p b k ha]
    rcases ready_of_busy c k b hbusy hready with rfl | ⟨why, rfl⟩ | ⟨hlast, -⟩
    · exact ⟨htx', htrig, hpt⟩
    · exact ⟨htx', htrig, hpt⟩
    · obtain ⟨hact, -⟩ := (txLast_eq_true_iff c b).1 hlast
      exact absurd (htx.symm.trans hact) Bool.false_ne_true

/-! ### The trigger pulse (R93) -/

/-- The block is in cycle m, counted from 0, of the T cycles of a trigger pulse, and nothing else is in progress; the PT
registers are those of `b₀`, in which the pulse was started. -/
structure InPulse (c : Parameters) (b₀ : Block cw stages) (m : Nat) (b : Block cw stages) : Prop where
  txAct : b.txAct = false
  ptPhase : b.ptPhase = .idle
  ptRegisters_eq : ptRegisters b = ptRegisters b₀
  trigOut : b.trigOut = true
  remaining : b.trgCnt.toNat + m + 1 = c.trigCycles

/-- A pulse is an operation in progress (R46). -/
theorem InPulse.busy_eq_true {c : Parameters} {b₀ b : Block cw stages} {m : Nat} (h : InPulse c b₀ m b) :
    busy b = true :=
  (busy_eq_true_iff b).2 (.inr (.inl h.trigOut))

/-- An accepted TRIG puts the block in the first cycle of the pulse (R92). -/
theorem inPulse_of_accepted_trig {c : Parameters} (hc : c.Legal) {p : Pins} {b : Block cw stages}
    (ha : accepted c p b = some (.legal .trig)) : InPulse c b 0 (cycle c p b) := by
  obtain ⟨hrst, -, -, hready⟩ := (accepted_eq_some c p b _).1 ha
  obtain ⟨htx, -, hphase⟩ := (busy_eq_false_iff b).1 (by simpa [ready] using hready)
  have hT := hc.trigCycles
  have hpt : ptRegisters (cycle c p b) = ptRegisters b := by
    rw [ptRegisters_cycle c p b hrst (by simp [ha])]
    simp [ptStep, hphase]
  rw [cycle_of_some c p b _ ha] at hpt ⊢
  refine ⟨txAct_engines_eq_false c _ htx, ptPhase_engines_eq_idle c _ hphase, hpt, rfl, ?_⟩
  have hcnt := startPulse_trgCnt_toNat hc (engines c (echoSample b.sync p.echoPin) b)
  simp only [wordEffect, commandEffect, latchEcho_trgCnt, hcnt]
  omega

/-- What a cycle of a pulse does to the registers that are not the trigger's: nothing. -/
theorem InPulse.frame_cycle {c : Parameters} {b₀ b : Block cw stages} {m : Nat} {q : Pins} (h : InPulse c b₀ m b)
    (hrst : q.rst = false) :
    (cycle c q b).txAct = false ∧ (cycle c q b).ptPhase = .idle ∧ ptRegisters (cycle c q b) = ptRegisters b₀ := by
  obtain ⟨htx, -, hpt⟩ := cycle_of_busy (c := c) hrst h.busy_eq_true h.txAct
  have hidle : ptStep c (echoSample b.sync q.echoPin) b = b := by simp [ptStep, h.ptPhase]
  rw [hidle] at hpt
  have hphase : (cycle c q b).ptPhase = .idle := (congrArg Prod.fst hpt).trans h.ptPhase
  exact ⟨htx, hphase, hpt.trans h.ptRegisters_eq⟩

/-- Short of the last cycle of a pulse, every cycle without reset goes on with it. -/
theorem InPulse.succ_cycle {c : Parameters} {b₀ b : Block cw stages} {m : Nat} {q : Pins} (h : InPulse c b₀ m b)
    (hrst : q.rst = false) (hm : m + 1 < c.trigCycles) : InPulse c b₀ (m + 1) (cycle c q b) := by
  obtain ⟨htx, hphase, hpt⟩ := h.frame_cycle hrst
  obtain ⟨-, htrig, -⟩ := cycle_of_busy (c := c) hrst h.busy_eq_true h.txAct
  have hrem := h.remaining
  have hne : b.trgCnt ≠ 0 := by bv_omega
  have hstep : trigStep b = { b with trgCnt := b.trgCnt - 1 } := (if_pos h.trigOut).trans (if_neg hne)
  rw [hstep] at htrig
  obtain ⟨hout, hcnt⟩ := Prod.mk.inj htrig
  exact ⟨htx, hphase, hpt, hout.trans h.trigOut, by bv_omega⟩

/-- The last cycle of a pulse ends it. -/
theorem InPulse.end_cycle {c : Parameters} {b₀ b : Block cw stages} {m : Nat} {q : Pins} (h : InPulse c b₀ m b)
    (hrst : q.rst = false) (hm : m + 1 = c.trigCycles) : (cycle c q b).trigOut = false := by
  obtain ⟨-, htrig, -⟩ := cycle_of_busy (c := c) hrst h.busy_eq_true h.txAct
  have hrem := h.remaining
  have hzero : b.trgCnt = 0 := by bv_omega
  have hstep : trigStep b = { b with trigOut := false } := (if_pos h.trigOut).trans (if_pos hzero)
  rw [hstep] at htrig
  exact (Prod.mk.inj htrig).1

/-- A run without reset goes on with a pulse for its T cycles. -/
theorem InPulse.runCycles_take {c : Parameters} {b₀ b : Block cw stages} {ps : List Pins} (h : InPulse c b₀ 0 b)
    (hps : noReset ps) {m : Nat} (hm : m < c.trigCycles) (hlen : m ≤ ps.length) :
    InPulse c b₀ m (runCycles c (ps.take m) b) := by
  induction m with
  | zero => exact h
  | succ m ih =>
    rw [runCycles_take_succ c b (List.getElem?_eq_getElem hlen)]
    exact (ih (by omega) (by omega)).succ_cycle (hps _ (List.getElem_mem _)) hm

/-- T cycles after its first, a pulse is over, and the block quiescent with the PT registers it had. -/
theorem InPulse.quiescent_runCycles_take {c : Parameters} (hc : c.Legal) {b₀ b : Block cw stages} {ps : List Pins}
    (h : InPulse c b₀ 0 b) (hps : noReset ps) (hlen : c.trigCycles ≤ ps.length) :
    busy (runCycles c (ps.take c.trigCycles) b) = false
    ∧ ptRegisters (runCycles c (ps.take c.trigCycles) b) = ptRegisters b₀ := by
  obtain ⟨m, hm⟩ : ∃ m, c.trigCycles = m + 1 := Nat.exists_eq_add_one.2 hc.trigCycles.1
  have hlast := h.runCycles_take hps (m := m) (by omega) (by omega)
  have hq : (ps[m]'(by omega)).rst = false := hps _ (List.getElem_mem _)
  obtain ⟨htx, hphase, hpt⟩ := hlast.frame_cycle hq
  rw [hm, runCycles_take_succ c b (List.getElem?_eq_getElem (by omega))]
  exact ⟨(busy_eq_false_iff _).2 ⟨htx, hlast.end_cycle hq hm.symm, hphase⟩, hpt⟩

/-- Settles O31: the pulse starts with the accepted TRIG, and the PT registers stand through it. -/
theorem triggerPulseLastsTCycles : Obligations.TriggerPulseLastsTCycles := by
  unfold Obligations.TriggerPulseLastsTCycles
  intro c hc b p ps ha hps hlen
  have hstart := inPulse_of_accepted_trig hc ha
  refine ⟨fun m hm => (hstart.runCycles_take hps hm (by omega)).trigOut, ?_⟩
  obtain ⟨hbusy, hpt⟩ := hstart.quiescent_runCycles_take hc hps hlen.ge
  rw [← hlen, List.take_length] at hbusy hpt
  simp only [ptRegisters, Prod.mk.injEq] at hpt
  obtain ⟨-, hstat, -, -, -, -, -, -, hdur⟩ := hpt
  obtain ⟨-, hout, -⟩ := (busy_eq_false_iff _).1 hbusy
  exact ⟨hout, hdur, hstat⟩

/-! ### PING (R94) -/

/-- An offered MEAS is accepted exactly when the block is quiescent (R110, R111). -/
theorem accepted_of_offered_meas (c : Parameters) {q : Pins} (b : Block cw stages) (hrst : q.rst = false)
    (hvalid : q.cmdValid = true) (hcmd : q.cmd = 0x3000#16) :
    accepted c q b = if busy b then none else some (.legal .meas) := by
  have hdecode : decode q.cmd = .legal .meas := hcmd ▸ decode_encode .meas
  cases hbusy : busy b <;> simp [accepted, cmdReady, hrst, hvalid, hdecode, ready, hbusy]

/-- Settles O32: the pulse holds MEAS back through its T cycles, and the quiescent block after it takes MEAS. -/
theorem pingMeasuresRightAfterThePulse : Obligations.PingMeasuresRightAfterThePulse := by
  unfold Obligations.PingMeasuresRightAfterThePulse
  intro c hc b p ps ha hps hlen hoffer
  have hstart := inPulse_of_accepted_trig hc ha
  obtain ⟨hquiet, -⟩ := hstart.quiescent_runCycles_take hc hps (by omega)
  have haccepted : ∀ (m : Nat) (q : Pins), ps[m]? = some q →
      accepted c q (runCycles c (ps.take m) (cycle c p b))
        = if m < c.trigCycles then none else some (.legal .meas) := by
    intro m q hq
    obtain ⟨hm, -⟩ := List.getElem?_eq_some_iff.1 hq
    have hmem := List.mem_of_getElem? hq
    obtain ⟨hvalid, hcmd⟩ := hoffer q hmem
    rw [accepted_of_offered_meas c _ (hps q hmem) hvalid hcmd]
    by_cases hpulse : m < c.trigCycles
    · simp [hpulse, (hstart.runCycles_take hps hpulse hm.le).busy_eq_true]
    · have hend : m = c.trigCycles := by omega
      simp [hend, hquiet]
  refine ⟨haccepted, ?_⟩
  obtain ⟨q, hq⟩ : ∃ q, ps[c.trigCycles]? = some q := ⟨_, List.getElem?_eq_getElem (by omega)⟩
  have hmeas := haccepted _ q hq
  rw [if_neg (Nat.lt_irrefl _)] at hmeas
  obtain ⟨-, hout, -⟩ := (busy_eq_false_iff _).1 hquiet
  rw [← List.take_length (l := ps), hlen, runCycles_take_succ c _ hq, cycle_of_some c q _ _ hmeas]
  exact ⟨rfl, trigOut_engines_eq_false c _ hout⟩

/-! ### The samples of a run (R41, R42) -/

/-- One sample per cycle. -/
theorem length_echoSamples (sync : BitVec stages) (ps : List Pins) : (echoSamples sync ps).length = ps.length := by
  induction ps generalizing sync with
  | nil => rfl
  | cons p ps ih => exact congrArg Nat.succ (ih _)

/-- Sample m of a run without reset is the one that its cycle m reads. -/
theorem getElem?_echoSamples (c : Parameters) {ps : List Pins} (b : Block cw stages) (hps : noReset ps) {m : Nat}
    {q : Pins} (hq : ps[m]? = some q) :
    (echoSamples b.sync ps)[m]? = some (echoSample (runCycles c (ps.take m) b).sync q.echoPin) := by
  induction ps generalizing b m with
  | nil => cases hq
  | cons p ps ih =>
    obtain ⟨hp, hps⟩ := List.forall_mem_cons.1 hps
    cases m with
    | zero => cases hq; rfl
    | succ m =>
      have hsample := ih (cycle c p b) hps hq
      rw [cycle_sync c p b hp] at hsample
      exact hsample

/-- A run of the cycles of `ps` to which `e` is sample m takes one more cycle on that sample. -/
theorem exists_cycle_of_echoSamples (c : Parameters) {ps : List Pins} {b : Block cw stages} (hps : noReset ps)
    {m : Nat} {e : Bool} (he : (echoSamples b.sync ps)[m]? = some e) :
    ∃ q : Pins, q.rst = false ∧ echoSample (runCycles c (ps.take m) b).sync q.echoPin = e
      ∧ runCycles c (ps.take (m + 1)) b = cycle c q (runCycles c (ps.take m) b) := by
  obtain ⟨hm, -⟩ := List.getElem?_eq_some_iff.1 he
  rw [length_echoSamples] at hm
  have hq : ps[m]? = some ps[m] := List.getElem?_eq_getElem hm
  rw [getElem?_echoSamples c b hps hq] at he
  exact ⟨ps[m], hps _ (List.getElem_mem _), Option.some.inj he, runCycles_take_succ c b hq⟩

/-! ### A measurement in progress (R102, R103) -/

/-- A measurement runs, without a result yet, and nothing else is in progress. -/
structure Measuring (b : Block cw stages) : Prop where
  txAct : b.txAct = false
  trigOut : b.trigOut = false
  ptPhase : b.ptPhase ≠ .idle
  ptStat : b.ptStat = .run
  dur : b.dur = 0

/-- What the host sees of a measurement in progress (R103). -/
theorem Measuring.busy_run_zero {b : Block cw stages} (h : Measuring b) :
    busy b = true ∧ b.ptStat = .run ∧ b.dur = 0 :=
  ⟨(busy_eq_true_iff b).2 (.inr (.inr h.ptPhase)), h.ptStat, h.dur⟩

/-- A cycle of a measurement is its PT step, and no other operation starts in it, whatever the host offers. -/
theorem Measuring.registers_cycle {c : Parameters} {b : Block cw stages} {q : Pins} {e : Bool} (h : Measuring b)
    (hrst : q.rst = false) (he : echoSample b.sync q.echoPin = e) :
    (cycle c q b).txAct = false ∧ (cycle c q b).trigOut = false
    ∧ ptRegisters (cycle c q b) = ptRegisters (ptStep c e b) := by
  obtain ⟨hbusy, -, -⟩ := h.busy_run_zero
  obtain ⟨htx, htrig, hpt⟩ := cycle_of_busy (c := c) hrst hbusy h.txAct
  have hidle : trigStep b = b := by simp [trigStep, h.trigOut]
  rw [hidle] at htrig
  exact ⟨htx, (congrArg Prod.fst htrig).trans h.trigOut, he ▸ hpt⟩

/-- A cycle whose PT step leaves the measurement in IDLE ends it with that step's status and result. -/
theorem Measuring.end_cycle {c : Parameters} {b : Block cw stages} {q : Pins} {e : Bool} (h : Measuring b)
    (hrst : q.rst = false) (he : echoSample b.sync q.echoPin = e) (hidle : (ptStep c e b).ptPhase = .idle) :
    busy (cycle c q b) = false ∧ (cycle c q b).ptStat = (ptStep c e b).ptStat
    ∧ (cycle c q b).dur = (ptStep c e b).dur := by
  obtain ⟨htx, htrig, hpt⟩ := h.registers_cycle (c := c) hrst he
  simp only [ptRegisters, Prod.mk.injEq] at hpt
  obtain ⟨hphase, hstat, -, -, -, -, -, -, hdur⟩ := hpt
  exact ⟨(busy_eq_false_iff _).2 ⟨htx, htrig, hphase.trans hidle⟩, hstat, hdur⟩

/-- Phase A after m samples of 0. -/
structure InPhaseA (c : Parameters) (m : Nat) (b : Block cw stages) : Prop where
  measuring : Measuring b
  rise : b.ptPhase = .rise
  budget : b.ta.toNat + m = c.riseBudget

/-- Phase B after n samples of 1 since the rise. -/
structure InPhaseB (c : Parameters) (n : Nat) (b : Block cw stages) : Prop where
  measuring : Measuring b
  fall : b.ptPhase = .fall
  budget : b.tb.toNat + n = c.fallBudget
  counter : b.HoldsSteps c n

/-- An accepted MEAS begins Phase A (R97). -/
theorem inPhaseA_of_accepted_meas {c : Parameters} (hc : c.Legal) {p : Pins} {b : Block cw stages}
    (ha : accepted c p b = some (.legal .meas)) : InPhaseA c 0 (cycle c p b) := by
  obtain ⟨-, -, -, hready⟩ := (accepted_eq_some c p b _).1 ha
  obtain ⟨htx, htrig, -⟩ := (busy_eq_false_iff b).1 (by simpa [ready] using hready)
  rw [cycle_of_some c p b _ ha]
  refine ⟨⟨txAct_engines_eq_false c _ htx, trigOut_engines_eq_false c _ htrig, ?_, rfl, rfl⟩, rfl, ?_⟩
  · simp [wordEffect, commandEffect]
  · exact startMeasurement_ta_toNat hc (engines c (echoSample b.sync p.echoPin) b)

section Cycles

variable {c : Parameters} {b : Block cw stages} {q : Pins} {m n : Nat}

/-- A sample of 0 within the budget goes on with Phase A. -/
theorem InPhaseA.succ_cycle (h : InPhaseA c m b) (hrst : q.rst = false)
    (he : echoSample b.sync q.echoPin = false) (hm : m + 1 < c.riseBudget) : InPhaseA c (m + 1) (cycle c q b) := by
  obtain ⟨htx, htrig, hpt⟩ := h.measuring.registers_cycle (c := c) hrst he
  have hbudget := h.budget
  rw [ptStep_of_rise_low c h.rise (by bv_omega)] at hpt
  simp only [ptRegisters, Prod.mk.injEq] at hpt
  obtain ⟨hphase, hstat, hta, -, -, -, -, -, hdur⟩ := hpt
  exact ⟨⟨htx, htrig, hphase ▸ h.measuring.ptPhase, hstat.trans h.measuring.ptStat,
    hdur.trans h.measuring.dur⟩, hphase.trans h.rise, by bv_omega⟩

/-- A sample of 0 at the end of the budget times Phase A out. -/
theorem InPhaseA.end_cycle (h : InPhaseA c m b) (hrst : q.rst = false)
    (he : echoSample b.sync q.echoPin = false) (hm : m + 1 = c.riseBudget) :
    busy (cycle c q b) = false ∧ (cycle c q b).ptStat = .tmo ∧ (cycle c q b).dur = 0 := by
  have hbudget := h.budget
  have hend := h.measuring.end_cycle (c := c) hrst he
  rw [ptStep_of_rise_last c h.rise (by bv_omega)] at hend
  exact hend rfl

/-- A sample of 1 in Phase A begins Phase B with a cleared counter. -/
theorem InPhaseA.rise_cycle (hc : c.Legal) (h : InPhaseA c m b) (hrst : q.rst = false)
    (he : echoSample b.sync q.echoPin = true) : InPhaseB c 0 (cycle c q b) := by
  obtain ⟨htx, htrig, hpt⟩ := h.measuring.registers_cycle (c := c) hrst he
  rw [ptStep_of_rise_high c h.rise] at hpt
  simp only [ptRegisters, Prod.mk.injEq] at hpt
  obtain ⟨hphase, hstat, -, htb, hcnt, hpsc, htov, hovf, hdur⟩ := hpt
  exact ⟨⟨htx, htrig, by simp [hphase], hstat.trans h.measuring.ptStat, hdur.trans h.measuring.dur⟩,
    hphase, by rw [htb]; exact fallBudget_toNat hc, by simp [Block.HoldsSteps, hcnt, hpsc, htov, hovf]⟩

/-- The counting step of any Phase B step. -/
theorem InPhaseB.holdsSteps_succ (hc : c.Legal) (hcw : 1 ≤ cw ∧ cw ≤ 32) (h : InPhaseB c n b) :
    (countingStep c b).HoldsSteps c (n + 1) := by
  have hN := hc.fallBudget
  have hbudget := h.budget
  exact holdsSteps_countingStep c hc.prescale hcw b n (by omega) h.counter

/-- A sample of 1 within the budget goes on with Phase B. -/
theorem InPhaseB.succ_cycle (hc : c.Legal) (hcw : 1 ≤ cw ∧ cw ≤ 32) (h : InPhaseB c n b) (hrst : q.rst = false)
    (he : echoSample b.sync q.echoPin = true) (hn : n + 1 < c.fallBudget) : InPhaseB c (n + 1) (cycle c q b) := by
  obtain ⟨htx, htrig, hpt⟩ := h.measuring.registers_cycle (c := c) hrst he
  have hbudget := h.budget
  have hcounter := h.holdsSteps_succ hc hcw
  rw [ptStep_of_fall_high c h.fall (by bv_omega)] at hpt
  simp only [ptRegisters, Prod.mk.injEq] at hpt
  obtain ⟨hphase, hstat, -, htb, hcnt, hpsc, htov, hovf, hdur⟩ := hpt
  refine ⟨⟨htx, htrig, hphase ▸ h.measuring.ptPhase, hstat.trans h.measuring.ptStat,
    hdur.trans h.measuring.dur⟩, hphase.trans h.fall, by bv_omega, ?_⟩
  rwa [Block.HoldsSteps, hcnt, hpsc, htov, hovf]

/-- A sample of 1 at the end of the budget times Phase B out. -/
theorem InPhaseB.timeout_cycle (h : InPhaseB c n b) (hrst : q.rst = false)
    (he : echoSample b.sync q.echoPin = true) (hn : n + 1 = c.fallBudget) :
    busy (cycle c q b) = false ∧ (cycle c q b).ptStat = .tmo ∧ (cycle c q b).dur = 0 := by
  have hbudget := h.budget
  have hend := h.measuring.end_cycle (c := c) hrst he
  rw [ptStep_of_fall_last c h.fall (by bv_omega)] at hend
  exact hend rfl

/-- A sample of 0 ends Phase B with the result of all its steps, the present one included. -/
theorem InPhaseB.fall_cycle (hc : c.Legal) (hcw : 1 ≤ cw ∧ cw ≤ 32) (h : InPhaseB c n b) (hrst : q.rst = false)
    (he : echoSample b.sync q.echoPin = false) (hn : n < c.fallBudget) :
    busy (cycle c q b) = false ∧ (cycle c q b).ptStat = .ok
    ∧ (cycle c q b).dur.toNat = (n + 1) / c.prescale := by
  have hN := hc.fallBudget
  have hresult := extendedCount_toNat c hcw.2 _ (n + 1) (by omega) (h.holdsSteps_succ hc hcw)
  have hend := h.measuring.end_cycle (c := c) hrst he
  rw [ptStep_of_fall_low c h.fall] at hend
  obtain ⟨hbusy, hstat, hdur⟩ := hend rfl
  exact ⟨hbusy, hstat, hdur ▸ hresult⟩

end Cycles

/-! ### A measurement over its samples (R102) -/

section Runs

variable {c : Parameters} {b : Block cw stages} {ps : List Pins}

/-- Phase A lasts through fewer than M samples of 0. -/
theorem InPhaseA.runCycles_take (h : InPhaseA c 0 b) (hps : noReset ps) {m : Nat} (hm : m < c.riseBudget)
    (hlow : ∀ i, i < m → (echoSamples b.sync ps)[i]? = some false) :
    InPhaseA c m (runCycles c (ps.take m) b) := by
  induction m with
  | zero => exact h
  | succ m ih =>
    obtain ⟨q, hrst, he, hnext⟩ := exists_cycle_of_echoSamples c hps (hlow m m.lt_succ_self)
    rw [hnext]
    exact (ih (by omega) fun i hi => hlow i (by omega)).succ_cycle hrst he hm

/-- Phase B, begun after a samples, lasts through fewer than N samples of 1. -/
theorem InPhaseB.runCycles_take (hc : c.Legal) (hcw : 1 ≤ cw ∧ cw ≤ 32) (hps : noReset ps) {a : Nat}
    (h : InPhaseB c 0 (runCycles c (ps.take a) b)) {n : Nat} (hn : n < c.fallBudget)
    (hhigh : ∀ j, j < n → (echoSamples b.sync ps)[a + j]? = some true) :
    InPhaseB c n (runCycles c (ps.take (a + n)) b) := by
  induction n with
  | zero => exact h
  | succ n ih =>
    obtain ⟨q, hrst, he, hnext⟩ := exists_cycle_of_echoSamples c hps (hhigh n n.lt_succ_self)
    rw [← Nat.add_assoc, hnext]
    exact (ih (by omega) fun j hj => hhigh j (by omega)).succ_cycle hc hcw hrst he hn

/-- A measurement whose samples begin with z < M zeros and then n + 1 ones, n < N: it runs through the cycles of these
samples, and is then in Phase B with n counted steps. -/
theorem measuring_of_pulse (hc : c.Legal) (hcw : 1 ≤ cw ∧ cw ≤ 32) (h : InPhaseA c 0 b) (hps : noReset ps)
    {z n : Nat} (hz : z < c.riseBudget) (hn : n < c.fallBudget)
    (hlow : ∀ i, i < z → (echoSamples b.sync ps)[i]? = some false)
    (hhigh : ∀ j, j ≤ n → (echoSamples b.sync ps)[z + j]? = some true) :
    (∀ m, m ≤ z + 1 + n → Measuring (runCycles c (ps.take m) b))
    ∧ InPhaseB c n (runCycles c (ps.take (z + 1 + n)) b) := by
  have hA : ∀ m, m ≤ z → InPhaseA c m (runCycles c (ps.take m) b) := fun m hm =>
    h.runCycles_take hps (by omega) fun i hi => hlow i (by omega)
  have hrise : InPhaseB c 0 (runCycles c (ps.take (z + 1)) b) := by
    obtain ⟨q, hrst, he, hnext⟩ := exists_cycle_of_echoSamples c hps (hhigh 0 (Nat.zero_le n))
    rw [hnext]
    exact (hA z le_rfl).rise_cycle hc hrst he
  have hB : ∀ j, j ≤ n → InPhaseB c j (runCycles c (ps.take (z + 1 + j)) b) := fun j hj =>
    InPhaseB.runCycles_take hc hcw hps hrise (by omega) fun i hi => by
      rw [Nat.add_assoc, Nat.add_comm 1 i]
      exact hhigh (i + 1) (by omega)
  refine ⟨fun m hm => ?_, hB n le_rfl⟩
  by_cases hmz : m ≤ z
  · exact (hA m hmz).measuring
  · obtain ⟨j, rfl⟩ := Nat.exists_eq_add_of_lt (not_le.1 hmz)
    rw [show z + j + 1 = z + 1 + j by omega]
    exact (hB j (by omega)).measuring

end Runs

/-- Settles O38: M − 1 samples of 0 leave Phase A with a budget of 1, and the next one spends it. -/
theorem phaseATimesOutAfterMSamples : Obligations.PhaseATimesOutAfterMSamples := by
  unfold Obligations.PhaseATimesOutAfterMSamples
  intro c hc b p ps ha hps hsamples
  have hlen : ps.length = c.riseBudget := by
    rw [← length_echoSamples (cycle c p b).sync ps, hsamples, List.length_replicate]
  have hlow : ∀ i, i < c.riseBudget → (echoSamples (cycle c p b).sync ps)[i]? = some false := fun i hi => by
    rw [hsamples, List.getElem?_replicate_of_lt hi]
  have hA : ∀ m, m < c.riseBudget → InPhaseA c m (runCycles c (ps.take m) (cycle c p b)) := fun m hm =>
    (inPhaseA_of_accepted_meas hc ha).runCycles_take hps hm fun i hi => hlow i (by omega)
  refine ⟨fun m hm => (hA m (by omega)).measuring.busy_run_zero, ?_⟩
  obtain ⟨m, hm⟩ : ∃ m, c.riseBudget = m + 1 := Nat.exists_eq_add_one.2 hc.riseBudget.1
  obtain ⟨q, hrst, he, hnext⟩ := exists_cycle_of_echoSamples c hps (hlow m (by omega))
  rw [← hm, ← hlen, List.take_length] at hnext
  rw [hnext]
  exact (hA m (by omega)).end_cycle hrst he hm.symm

/-- The samples of a pulse: `z` zeros, then `w` ones, whatever follows. -/
theorem getElem?_pulse (z w : Nat) (rest : List Bool) :
    (∀ i, i < z → (List.replicate z false ++ List.replicate w true ++ rest)[i]? = some false)
    ∧ ∀ j, j < w → (List.replicate z false ++ List.replicate w true ++ rest)[z + j]? = some true := by
  constructor
  · intro i hi
    rw [List.append_assoc, List.getElem?_append_left (by simpa using hi), List.getElem?_replicate_of_lt hi]
  · intro j hj
    rw [List.append_assoc, List.getElem?_append_right (by simp), List.length_replicate, Nat.add_sub_cancel_left,
      List.getElem?_append_left (by simpa using hj), List.getElem?_replicate_of_lt hj]

/-- Settles O39: Phase B is left by the sample of 0 after W − 1 counted steps, which counts the last one. -/
theorem pulseIsMeasuredAsFloorOfWidthOverP : Obligations.PulseIsMeasuredAsFloorOfWidthOverP := by
  unfold Obligations.PulseIsMeasuredAsFloorOfWidthOverP
  intro c hc b p ps k W ha hps hk hkM hW hWN hsamples
  have hcw := counterWidth_le_wide hc
  obtain ⟨z, rfl⟩ := Nat.exists_eq_add_one.2 hk
  obtain ⟨n, rfl⟩ := Nat.exists_eq_add_one.2 hW
  rw [Nat.add_sub_cancel] at hsamples
  have hlen : ps.length = z + 1 + n + 1 := by
    rw [← length_echoSamples (cycle c p b).sync ps, hsamples]
    simp
    omega
  obtain ⟨hlow, hhigh⟩ := getElem?_pulse z (n + 1) [false]
  rw [← hsamples] at hlow hhigh
  have hend : (echoSamples (cycle c p b).sync ps)[z + 1 + n]? = some false := by
    rw [hsamples, List.getElem?_append_right (by simp; omega)]
    simp [Nat.add_right_comm, Nat.add_assoc]
  obtain ⟨hrun, hB⟩ := measuring_of_pulse hc hcw (inPhaseA_of_accepted_meas hc ha) hps (Nat.lt_of_succ_le hkM)
    (Nat.lt_of_succ_le hWN) hlow fun j hj => hhigh j (Nat.lt_succ_of_le hj)
  obtain ⟨q, hrst, he, hnext⟩ := exists_cycle_of_echoSamples c hps hend
  rw [← hlen, List.take_length] at hnext
  refine ⟨fun m hm => (hrun m (by omega)).busy_run_zero, ?_⟩
  rw [hnext]
  exact hB.fall_cycle hc hcw hrst he (Nat.lt_of_succ_le hWN)

/-- Settles O40: N ones leave Phase B with a budget of 1, and one more spends it. -/
theorem phaseBTimesOutAfterNSamples : Obligations.PhaseBTimesOutAfterNSamples := by
  unfold Obligations.PhaseBTimesOutAfterNSamples
  intro c hc b p ps k ha hps hk hkM hsamples
  have hcw := counterWidth_le_wide hc
  obtain ⟨z, rfl⟩ := Nat.exists_eq_add_one.2 hk
  obtain ⟨n, hN⟩ : ∃ n, c.fallBudget = n + 1 := Nat.exists_eq_add_one.2 hc.fallBudget.1
  rw [Nat.add_sub_cancel, hN] at hsamples
  have hlen : ps.length = z + 1 + n + 1 := by
    rw [← length_echoSamples (cycle c p b).sync ps, hsamples]
    simp
    omega
  obtain ⟨hlow, hhigh⟩ := getElem?_pulse z (n + 1 + 1) []
  rw [List.append_nil, ← hsamples] at hlow hhigh
  obtain ⟨hrun, hB⟩ := measuring_of_pulse hc hcw (inPhaseA_of_accepted_meas hc ha) hps (Nat.lt_of_succ_le hkM)
    (hN.symm ▸ n.lt_succ_self : n < c.fallBudget) hlow fun j hj => hhigh j (by omega)
  have hend : (echoSamples (cycle c p b).sync ps)[z + 1 + n]? = some true := by
    rw [Nat.add_assoc, Nat.add_comm 1 n]
    exact hhigh (n + 1) (Nat.lt_succ_self _)
  obtain ⟨q, hrst, he, hnext⟩ := exists_cycle_of_echoSamples c hps hend
  rw [← hlen, List.take_length] at hnext
  refine ⟨fun m hm => (hrun m (by omega)).busy_run_zero, ?_⟩
  rw [hnext]
  exact hB.timeout_cycle hrst he hN.symm

end Sys2Proof.Machine
end

section
/-! PROOFS. The family '42_command_port.md': which words are ready (R111) and accepted (R110), what a cycle owes to the word
offered in it (R113 to R115), the first command after reset (R136), and runs of the machine (R115, R116). -/

namespace Sys2Proof.Machine

open Sys2Proof.Config

variable {cw stages : Nat}

/-! ### Ready and accepted words (R110, R111) -/

/-- TXB is ready when no operation is in progress or the one in progress is a frame that ends here (R111). -/
theorem ready_txb_iff (c : Parameters) (d : Byte) (b : Block cw stages) :
    ready c (.legal (.txb d)) b = true ↔ busy b = false ∨ txLast c b = true := by
  simp [ready, txbReady]

/-- TRIG is ready when no operation is in progress (R111). -/
theorem ready_trig_iff (c : Parameters) (b : Block cw stages) :
    ready c (.legal .trig) b = true ↔ busy b = false := by
  simp [ready]

/-- MEAS is ready when no operation is in progress (R111). -/
theorem ready_meas_iff (c : Parameters) (b : Block cw stages) :
    ready c (.legal .meas) b = true ↔ busy b = false := by
  simp [ready]

/-- Settles O20, kind by kind: NOP and illegal words never wait. -/
theorem readyFollowsTheTableOfR111 : Obligations.ReadyFollowsTheTableOfR111 := by
  unfold Obligations.ReadyFollowsTheTableOfR111
  exact fun c b => ⟨rfl, fun _ => rfl, fun d => ready_txb_iff c d b, ready_trig_iff c b, ready_meas_iff c b⟩

/-- Every word is ready where no operation is in progress (R111). -/
theorem ready_of_busy_eq_false (c : Parameters) (k : Decoded) {b : Block cw stages} (h : busy b = false) :
    ready c k b = true := by
  rw [← Bool.not_eq_false]
  exact fun hready => Bool.false_ne_true (h.symm.trans (busy_of_ready_eq_false hready))

/-- The port shows that the word now on `cmd` would be accepted (R110). -/
theorem cmdReady_eq_true_iff (c : Parameters) (p : Pins) (b : Block cw stages) :
    cmdReady c p b = true ↔ p.rst = false ∧ ready c (decode p.cmd) b = true := by
  simp [cmdReady]

/-! ### A cycle beside the same cycle with nothing offered -/

/-- Without a reset, a cycle with `cmd_valid` = 0 moves the engines and the synchroniser only, whatever is on `cmd`. -/
theorem cycle_of_cmdValid_false (c : Parameters) {p : Pins} (w : Word) (b : Block cw stages)
    (hrst : p.rst = false) :
    cycle c { p with cmdValid := false, cmd := w } b
      = latchEcho p.echoPin (engines c (echoSample b.sync p.echoPin) b) :=
  cycle_of_none c _ b hrst ((accepted_eq_none c _ b).2 (.inr (.inl rfl)))

/-- A word that is not accepted has no effect (R110). -/
theorem cycle_of_not_accepted (c : Parameters) {p : Pins} (w : Word) {b : Block cw stages}
    (ha : accepted c p b = none) :
    cycle c p b = cycle c { p with cmdValid := false, cmd := w } b := by
  by_cases hrst : p.rst = true
  · rw [cycle_of_rst c p b hrst, cycle_of_rst c { p with cmdValid := false, cmd := w } b hrst]
  · rw [Bool.not_eq_true] at hrst
    rw [cycle_of_none c p b hrst ha, cycle_of_cmdValid_false c w b hrst]

/-- An accepted NOP leaves the cycle as it is with nothing offered (R113). -/
theorem cycle_of_accepted_nop (c : Parameters) {p : Pins} (w : Word) {b : Block cw stages}
    (ha : accepted c p b = some (.legal .nop)) :
    cycle c p b = cycle c { p with cmdValid := false, cmd := w } b := by
  obtain ⟨hrst, -⟩ := (accepted_eq_some c p b _).1 ha
  rw [cycle_of_some c p b _ ha, cycle_of_cmdValid_false c w b hrst]
  rfl

/-- An accepted illegal word adds ERR <- 1 to the cycle with nothing offered (R114). -/
theorem cycle_of_accepted_illegal (c : Parameters) {p : Pins} (w : Word) {b : Block cw stages} {why : IllegalWord}
    (ha : accepted c p b = some (.illegal why)) :
    cycle c p b = { cycle c { p with cmdValid := false, cmd := w } b with err := true } := by
  obtain ⟨hrst, -⟩ := (accepted_eq_some c p b _).1 ha
  rw [cycle_of_some c p b _ ha, cycle_of_cmdValid_false c w b hrst]
  rfl

/-! ### The machine's step on given inputs -/

/-- A step on the inputs p is the cycle function on p (`stepIsTheCycleFunction`), and its inputs are spent. -/
theorem step_withPins (s : State) (p : Pins) :
    step (s.withPins p) = .next (s.nextCycle.withBlock (cycle params p s.toBlock)) :=
  stepIsTheCycleFunction (s.withPins p)

/-- Settles O21: acceptance as R110 says it, and a cycle that accepts nothing is one with nothing offered. -/
theorem onlyAcceptedWordsHaveAnEffect : Obligations.OnlyAcceptedWordsHaveAnEffect := by
  unfold Obligations.OnlyAcceptedWordsHaveAnEffect
  refine fun s p => ⟨cmdReady_eq_true_iff _ _ _, accepted_eq_some _ _ _, fun ha w => ?_⟩
  rw [step_withPins, step_withPins, cycle_of_not_accepted params w ha]

/-- Settles O14: NOP's part 4 of R115 writes no register. -/
theorem nopCompletesAndWritesNothing : Obligations.NopCompletesAndWritesNothing :=
  fun s => exec_eq_commandEffect .nop s

/-- Settles O18: the word is NOP, whether it is accepted or not. -/
theorem offeredNopIsLikeNoCommand : Obligations.OfferedNopIsLikeNoCommand := by
  unfold Obligations.OfferedNopIsLikeNoCommand
  intro s p hcmd
  have hdecode : decode p.cmd = .legal .nop := hcmd ▸ decode_encode .nop
  refine ⟨fun hrst hvalid => (accepted_eq_some _ _ _ _).2 ⟨hrst, hvalid, hdecode, rfl⟩, ?_⟩
  rw [step_withPins, step_withPins]
  cases ha : accepted params p s.toBlock with
  | none => rw [cycle_of_not_accepted params p.cmd ha]
  | some k =>
    obtain ⟨-, -, hk, -⟩ := (accepted_eq_some _ _ _ _).1 ha
    obtain rfl : .legal .nop = k := hdecode.symm.trans hk
    rw [cycle_of_accepted_nop params p.cmd ha]

/-- Settles O19: a word of no row is illegal (`illegalWordsAreThoseOfNoRow`), and illegal words are always ready; a reset
wins over them. -/
theorem illegalWordOnlySetsErr : Obligations.IllegalWordOnlySetsErr := by
  unfold Obligations.IllegalWordOnlySetsErr
  intro s p hrows hvalid
  refine ⟨fun hrst => ?_, fun hrst => ?_⟩
  · obtain ⟨why, hwhy⟩ := (illegalWordsAreThoseOfNoRow p.cmd).2 hrows
    have ha : accepted params p s.toBlock = some (.illegal why) :=
      (accepted_eq_some _ _ _ _).2 ⟨hrst, hvalid, hwhy, rfl⟩
    refine ⟨⟨why, ha⟩, _, step_withPins s _, ?_⟩
    rw [step_withPins, cycle_of_accepted_illegal params p.cmd ha]
    rfl
  · refine ⟨(accepted_eq_none _ _ _).2 (.inl hrst), _, step_withPins s p, ?_⟩
    rw [cycle_of_rst params p _ hrst]
    rfl

/-! ### The accepted command runs (R115), and the first one after reset (R136) -/

/-- Settles O11: the word is accepted, so the step is part 4 for it, which is what `exec` answers. -/
theorem stepRunsTheAcceptedCommand : Obligations.StepRunsTheAcceptedCommand := by
  unfold Obligations.StepRunsTheAcceptedCommand
  intro s i _ hrst hvalid hdecode hready
  have ha : accepted params s.pins s.toBlock = some (.legal i) :=
    (accepted_eq_some _ _ _ _).2 ⟨hrst, hvalid, hdecode, hready⟩
  exact ⟨_, exec_eq_commandEffect i _, step_of_some s (.legal i) ha⟩

/-- With no operation in progress the engines stand still. -/
theorem engines_of_busy_eq_false (c : Parameters) (e : Bool) {b : Block cw stages} (h : busy b = false) :
    engines c e b = b := by
  obtain ⟨htx, htrig, hpt⟩ := (busy_eq_false_iff b).1 h
  simp [engines, txStep, trigStep, ptStep, htx, htrig, hpt]

/-- A command offered while no operation is in progress runs on the registers as they are. -/
theorem cycle_of_offered_command (c : Parameters) {p : Pins} {b : Block cw stages} {i : Instr}
    (hbusy : busy b = false) (hrst : p.rst = false) (hvalid : p.cmdValid = true) (hcmd : p.cmd = encode i) :
    cycle c p b = latchEcho p.echoPin (commandEffect c i b) := by
  have hdecode : decode p.cmd = .legal i := hcmd ▸ decode_encode i
  have ha : accepted c p b = some (.legal i) :=
    (accepted_eq_some c p b _).2 ⟨hrst, hvalid, hdecode, ready_of_busy_eq_false c _ hbusy⟩
  rw [cycle_of_some c p b _ ha, engines_of_busy_eq_false c _ hbusy]
  rfl

/-- The host's 16 bits of a word are the word. -/
theorem commandWord_toNat (w : Word) : commandWord 16 w.toNat = w := by
  rw [commandWord, Nat.mod_eq_of_lt w.isLt, BitVec.ofNat_toNat, BitVec.setWidth_eq]

/-- Settles O12: no operation is in progress in the reset state. -/
theorem firstCommandAfterResetRuns : Obligations.FirstCommandAfterResetRuns := by
  unfold Obligations.FirstCommandAfterResetRuns
  intro i _
  exact ⟨_, _, exec_eq_commandEffect i _, stepIsTheCycleFunction _,
    cycle_of_offered_command (p := (State.reset.withFetchWord 16 (encode i).toNat).pins) params rfl rfl rfl
      (commandWord_toNat (encode i))⟩

/-! ### Runs of the machine (R115, R116) -/

/-- The inputs to come do not depend on the registers. -/
theorem inputs_withBlock (n : Nat) (s : State) (b : Block counterWidth syncStages) :
    (s.withBlock b).inputs n = s.inputs n := by
  induction n generalizing s with
  | zero => rfl
  | succ n ih => exact congrArg (s.pins :: ·) (ih s.nextCycle)

/-- A run of one step more is a run from the state after the first step. -/
theorem core_run_succ (n : Nat) (s : State) :
    Host.Core.run core (n + 1) s
      = Host.Core.run core n (s.nextCycle.withBlock (cycle params s.pins s.toBlock)) := by
  have hstep : core.step s = .next (s.nextCycle.withBlock (cycle params s.pins s.toBlock)) :=
    stepIsTheCycleFunction s
  simp only [Host.Core.run, hstep]

/-- Settles O10, by induction on the number of steps. -/
theorem runIsTheCycleFunctionRepeated : Obligations.RunIsTheCycleFunctionRepeated := by
  unfold Obligations.RunIsTheCycleFunctionRepeated
  intro n
  induction n with
  | zero => exact fun _ => rfl
  | succ n ih =>
    intro s
    rw [core_run_succ, ih, inputs_withBlock]
    simp [State.inputs, Nat.add_assoc, Nat.add_comm 1 n]

end Sys2Proof.Machine
end

section
/-! PROOFS. The family '70_reset_and_hazards.md': a reset edge wins over everything (R134), and a host that stops issuing
commands finds the block quiescent within the bound of R152. -/

namespace Sys2Proof.Machine

open Sys2Proof.Config

variable {cw stages : Nat}

/-! ### The reset edge (R134) -/

/-- While `rst` = 1 the port is not ready (R110). -/
theorem cmdReady_of_rst (c : Parameters) {p : Pins} (b : Block cw stages) (hrst : p.rst = true) :
    cmdReady c p b = false := by
  simp [cmdReady, hrst]

/-- Settles O2: `rst` = 1 holds every word back, and the step's registers are those of the reset cycle. -/
theorem resetEdgeWinsOverEverything : Obligations.ResetEdgeWinsOverEverything := by
  unfold Obligations.ResetEdgeWinsOverEverything
  intro s p hrst
  have hreset : cycle params p s.toBlock = resetBlock := cycle_of_rst params p s.toBlock hrst
  refine ⟨cmdReady_of_rst params s.toBlock hrst, (accepted_eq_none params p s.toBlock).2 (.inl hrst), _,
    step_withPins s p, ?_⟩
  rw [hreset]
  exact ⟨rfl, resetBlock_txOut, resetBlock_trigOut⟩

/-! ### The block left to itself (R151, R152) -/

/-- With no cycle left, no operation is in progress. -/
theorem busy_eq_false_of_remaining_eq_zero {c : Parameters} (hc : c.Legal) {b : Block cw stages}
    (hcounts : countsInRange c b) (hbudgets : budgetsInRange c b) (h : remaining c b = 0) : busy b = false := by
  rw [← Bool.not_eq_true]
  exact fun hbusy => (remaining_pos_of_busy hc hcounts hbudgets hbusy).ne' h

/-- A run without reset in which no command is offered is quiescent once it has used up the cycles that remain: each
cycle takes one off, whatever the echo does (`remaining_cycle_of_none`). -/
theorem busy_runCycles_eq_false_of_remaining_le {c : Parameters} (hc : c.Legal) (ps : List Pins)
    (b : Block cw stages) (hcounts : countsInRange c b) (hbudgets : budgetsInRange c b) (hps : noReset ps)
    (hvalid : ∀ q ∈ ps, q.cmdValid = false) (hlen : remaining c b ≤ ps.length) :
    busy (runCycles c ps b) = false := by
  induction ps generalizing b with
  | nil => exact busy_eq_false_of_remaining_eq_zero hc hcounts hbudgets (Nat.le_zero.1 hlen)
  | cons p ps ih =>
    obtain ⟨hrst, hps'⟩ := List.forall_mem_cons.1 hps
    obtain ⟨hquiet, hvalid'⟩ := List.forall_mem_cons.1 hvalid
    have hnone : accepted c p b = none := (accepted_eq_none c p b).2 (.inr (.inl hquiet))
    have hstep : remaining c (cycle c p b) ≤ remaining c b - 1 :=
      remaining_cycle_of_none hc hcounts hbudgets hrst hnone
    refine ih (cycle c p b) (countsInRange_cycle hc p b hcounts) (budgetsInRange_cycle hc p b hbudgets) hps'
      hvalid' ?_
    rw [List.length_cons] at hlen
    omega

/-- Settles O46: the cycles that remain are at most the bound of R152 (`remaining_le_busyBound`), so the inputs use
them up. -/
theorem everyOperationEndsWithinTheBound : Obligations.EveryOperationEndsWithinTheBound := by
  unfold Obligations.EveryOperationEndsWithinTheBound
  rintro c hc b ps ⟨-, -, -, hcounts, -, hbudgets, -⟩ hps hvalid hlen
  exact busy_runCycles_eq_false_of_remaining_le hc ps b hcounts hbudgets hps hvalid
    ((remaining_le_busyBound hc hcounts hbudgets).trans hlen)

end Sys2Proof.Machine
end
